-- ==== Sys2Proof/Word.lean ====
section
/-!
DEFINITION. The word types that frames carry and the plainest arithmetic on numbers: clamping (00, Conventions).
-/
namespace Sys2Proof

/-- One byte of a frame. -/
abbrev Byte := BitVec 8

/-- An oven's serial: 48 bits (R1). -/
abbrev Serial := BitVec 48

/-- A site minute: an unsigned 32-bit count that wraps, with plain unsigned comparison (R43). -/
abbrev Minute := BitVec 32

/-- "Clamped into [lo, hi]" (00, Conventions): a value below lo is replaced by lo, a value above hi by hi. -/
def clamp (lo hi v : Nat) : Nat := if v < lo then lo else if hi < v then hi else v

end Sys2Proof
end

