-- ==== Sys2Proof/Config.lean ====
section
/-!
DEFINITION. What is fixed for the part: its table sizes and limits (R175, R179 and the rules cited), and the one
free value of the model.
-/
namespace Sys2Proof.Config

/-- Oven slots (R1). -/
def ovenSlots : Nat := 24
/-- Library slots (R55). -/
def librarySlots : Nat := 128
/-- Stage pool entries (R57). -/
def poolEntries : Nat := 768
/-- Ticket table slots (R125). -/
def ticketSlots : Nat := 64
/-- Most members of a campaign (R143). -/
def campaignMembers : Nat := 24
/-- Persisted indices (R179). -/
def persistedIndices : Nat := 219
/-- Attention causes (R172). -/
def attentionCauses : Nat := 16
/-- Most payload bytes of a request or a response (R166, R170). -/
def payloadLimit : Nat := 512
/-- Most entries of the discovery list and of the ignore list (R3, R4). -/
def discoveryCapacity : Nat := 8
/-- Most pairs of a refused list (R73). -/
def refusedCapacity : Nat := 8
/-- Most entries of the day-part schedule (R47). -/
def scheduleCapacity : Nat := 8
/-- Most carried entries whatever an oven's capacity (R73). -/
def carriedCap : Nat := 40
/-- Most indices in the wanted list and the chunk window together (R143). -/
def windowCapacity : Nat := 4
/-- Most indices of a gap list (R144). -/
def gapCapacity : Nat := 32
/-- Most repairs of one member in one wave (R154). -/
def repairLimit : Nat := 16
/-- Most attempts of a member (R156). -/
def attemptLimit : Nat := 3
/-- Turns in which a wave member may stay QUEUED (R150). -/
def beginTurnLimit : Nat := 5
/-- Missed turns at which the count saturates (R32). -/
def missedLimit : Nat := 5
/-- Missed turns that make an IN_SERVICE or RETIRING oven unreachable (R14). -/
def unreachableAt : Nat := 3
/-- Attempts of an exchange (R31). -/
def exchangeAttempts : Nat := 3
/-- Exchanges of a turn (R30). -/
def turnExchanges : Nat := 4
/-- The activation timer's start, in milliseconds (R159). -/
def activationTimeout : Nat := 600000
/-- The READ command byte (12.1). -/
def readCommand : Byte := 0x80#8
/-- The start byte of a bus frame (R189). -/
def startByte : Byte := 0xA5#8
/-- The part identity (R186). -/
def partIdentity : Nat := 0x4B24
/-- The revision code (R186). -/
def revisionCode : Nat := 0x10
/-- Highest issue sequence number, after which the count wraps to 1 (R114). -/
def sequenceMax : Nat := 4294967295

/-- DESIGN CHOICE (log 12), a FREE VALUE: the payload placed when the fields an owner's rule lists need more than the
512 bytes that R170 allows a response (READ_CLEANING with more than 18 obligations). The spec states none. It has no
body, so nothing can be proved of it. -/
opaque overlongPayload : List Byte → List Byte

end Sys2Proof.Config
end

