-- ==== Sys2Proof/Syntax.lean ====
section
/-!
DEFINITION. The commands of the FX24: one constructor of `Instr` for each row of spec/opcode_table.json.
Operands of host requests are the payload fields of the request table of R186 in their widths; a reply or a
transaction is the bytes on the wire; a pin or an internal event carries the zone, slot or reason it names.
-/
namespace Sys2Proof

/-- A stage as its 8 bytes carry it (12.2): mode and end code in one byte, then fan, humidity, core target,
setpoint, and duration or cap. -/
structure RawStage where
  modeEnd  : Byte
  fan      : Byte
  humidity : Byte
  core     : Byte
  setpoint : BitVec 16
  time     : BitVec 16
  deriving DecidableEq, Repr

/-- A firmware version (chapter 12): major, minor, build. -/
structure Firmware where
  major : Byte
  minor : Byte
  build : BitVec 16
  deriving DecidableEq, Repr

/-- Which condition of R31 or R190 a reply broke. -/
inductive ReplyFlaw where
  | gap | length | crc | address | kind | payload
  deriving DecidableEq, Repr

/-- The reasons of a wave failure (R156): the cause that a MEMBER_FINAL_FAILURE command names. -/
inductive WaveFlaw where
  | gaps | repairLimit | crc | refused
  deriving DecidableEq, Repr

/-- The commands of the block. The comment of each names its row of the table and the rule that owns it. -/
inductive Instr where
  -- pins and power
  | powerOn                                                    -- POWER_ON (R178)
  | resetNAsserted                                             -- RESET_N_ASSERTED (R177)
  | stopAsserted (zone : Fin 4)                                -- STOP_ASSERTED (R139)
  | stopDeasserted (zone : Fin 4)                              -- STOP_DEASSERTED (R140)
  -- host port transactions
  | requestWrite (shifted : List Byte)                         -- REQUEST_WRITE (R169)
  | requestDropped (shifted : List Byte)                       -- REQUEST_DROPPED (R167)
  | responseRead (further : Nat)                               -- RESPONSE_READ (R170)
  -- fleet requests
  | admitOven (serial : Serial) (slot zone group : Byte)       -- ADMIT (R6)
  | reject (serial : Serial)                                   -- REJECT (R4)
  | clearIgnored                                               -- CLEAR_IGNORED (R4)
  | retry (slot : Byte)                                        -- RETRY (R10)
  | setOven (slot mask zone group : Byte)                      -- SET_OVEN (R19)
  | holdOven (slot strength : Byte)                            -- HOLD_OVEN (R20)
  | releaseOven (slot : Byte)                                  -- RELEASE_OVEN (R20)
  | retire (slot force : Byte)                                 -- RETIRE (R21)
  | readDiscovery                                              -- READ_DISCOVERY (R5)
  | readIgnored                                                -- READ_IGNORED (R5)
  | readOven (slot : Byte)                                     -- READ_OVEN (R5)
  -- bus requests
  | discoverNow                                                -- DISCOVER_NOW (R39)
  | setSettingDiscovery (value : BitVec 16)                    -- SET_SETTING_DISCOVERY (R26)
  | setSettingSoil (code : Byte) (value : BitVec 16)           -- SET_SETTING_SOIL (R91)
  | setSettingCleaning (code : Byte) (value : BitVec 16)       -- SET_SETTING_CLEANING (R107)
  -- clock and mode requests
  | setClock (minute : BitVec 32) (offset : BitVec 16)         -- SET_CLOCK (R44)
  | setMode (mode : Byte)                                      -- SET_MODE (R51)
  | clearOverride                                              -- CLEAR_OVERRIDE (R51)
  | setProfile (mode field : Byte) (value : BitVec 16)         -- SET_PROFILE (R45)
  | setReserve (zone value : Byte)                             -- SET_RESERVE (R46)
  | scheduleSet (minute : BitVec 16) (mode : Byte)             -- SCHEDULE_SET (R47)
  | scheduleRemove (minute : BitVec 16)                        -- SCHEDULE_REMOVE (R47)
  | scheduleClear                                              -- SCHEDULE_CLEAR (R47)
  | readSchedule                                               -- READ_SCHEDULE (R47)
  | readClock                                                  -- READ_CLOCK (R53)
  | readProfiles                                               -- READ_PROFILES (R53)
  -- library requests
  | recipeWrite (id : BitVec 16) (version factor mask rank nameLength : Byte) (name : List Byte)
      (stages : List RawStage)                                 -- RECIPE_WRITE (R60)
  | recipeDiscard (id : BitVec 16) (version : Byte)            -- RECIPE_DISCARD (R62)
  | recipePublish (id : BitVec 16) (version : Byte)            -- RECIPE_PUBLISH (R63)
  | recipeWithdraw (id : BitVec 16) (version : Byte)           -- RECIPE_WITHDRAW (R64)
  | recipeAssign (id : BitVec 16) (version fields mask rank : Byte) -- RECIPE_ASSIGN (R65)
  | libraryList (id : BitVec 16) (version filter : Byte)       -- LIBRARY_LIST (R70)
  | recipeRead (id : BitVec 16) (version : Byte)               -- RECIPE_READ (R71)
  -- distribution requests
  | resync (slot : Byte)                                       -- RESYNC (R87)
  | clearRefused (slot : Byte)                                 -- CLEAR_REFUSED (R87)
  | readCarried (slot : Byte)                                  -- READ_CARRIED (R88)
  -- soil requests
  | adjustSoil (slot : Byte) (score : BitVec 16)               -- ADJUST_SOIL (R103)
  | readSoil (slot : Byte)                                     -- READ_SOIL (R104)
  | readSoilSettings                                           -- READ_SOIL_SETTINGS (R104)
  -- cleaning requests
  | setArbiter (mode slot : Byte)                              -- SET_ARBITER (R107)
  | extend (slot : Byte) (minute : BitVec 32)                  -- EXTEND (R121)
  | waive (slot : Byte)                                        -- WAIVE (R122)
  | readCleaning                                               -- READ_CLEANING (R123)
  -- ticket and hold requests
  | setRoute (cls route : Byte)                                -- SET_ROUTE (R126)
  | ack (number : BitVec 16)                                   -- ACK (R132)
  | dispatch (number : BitVec 16)                              -- DISPATCH (R132)
  | resolve (number : BitVec 16) (force : Byte)                -- RESOLVE (R133)
  | close (number : BitVec 16)                                 -- CLOSE (R133)
  | clearUntracked (slot : Byte)                               -- CLEAR_UNTRACKED (R134)
  | listTickets (number : BitVec 16) (filter slot : Byte)      -- LIST_TICKETS (R134)
  | readHolds (slot : Byte)                                    -- READ_HOLDS (R138)
  | releaseZone (zone : Byte)                                  -- RELEASE_ZONE (R140)
  | readStops                                                  -- READ_STOPS (R141)
  -- campaign requests
  | campaignDefine (id model : BitVec 16) (firmware : Firmware) (length crc : BitVec 32)
      (waveSize : Byte)                                        -- CAMPAIGN_DEFINE (R147)
  | addMember (slot : Byte)                                    -- ADD_MEMBER (R147)
  | removeMember (slot : Byte)                                 -- REMOVE_MEMBER (R147)
  | start                                                      -- START (R148)
  | pause                                                      -- PAUSE (R148)
  | resume                                                     -- RESUME (R148)
  | cancel                                                     -- CANCEL (R148)
  | dismiss                                                    -- DISMISS (R147)
  | chunkPut (id index : BitVec 16) (data : List Byte)         -- CHUNK_PUT (R153)
  | readCampaign                                               -- READ_CAMPAIGN (R164)
  | readWanted                                                 -- READ_WANTED (R164)
  | readGaps (slot : Byte)                                     -- READ_GAPS (R164)
  -- persistence requests
  | saveNext                                                   -- SAVE_NEXT (R181)
  | restorePut (kind index : Byte) (body : List Byte)          -- RESTORE_PUT (R183)
  | goLive                                                     -- GO_LIVE (R185)
  -- port requests
  | getInfo                                                    -- GET_INFO (R175)
  | resetFull                                                  -- RESET_FULL (R176)
  | resetBus                                                   -- RESET_BUS (R176)
  | readAttention                                              -- READ_ATTENTION (R174)
  | setAttentionEnable (set : BitVec 16)                       -- SET_ATTENTION_ENABLE (R173)
  -- time events
  | minuteExpiry                                               -- MINUTE_EXPIRY (R43)
  | scheduleBoundary                                           -- SCHEDULE_BOUNDARY (R50)
  | obligationOverdue (slot : Fin 24)                          -- OBLIGATION_OVERDUE (R109)
  | obligationLock (slot : Fin 24)                             -- OBLIGATION_LOCK (R110)
  | grantLapse (slot : Fin 24)                                 -- GRANT_LAPSE (R115)
  | activationTimeout (slot : Fin 24)                          -- ACTIVATION_TIMEOUT (R162)
  -- bus events
  | roundStart                                                 -- ROUND_START (R27)
  | exchangeStart                                              -- EXCHANGE_START (R29)
  | attemptRetry                                               -- ATTEMPT_RETRY (R31)
  | replyTimeout                                               -- REPLY_TIMEOUT (R31)
  | invalidReply (flaw : ReplyFlaw)                            -- INVALID_REPLY (R31)
  | exchangeFailure                                            -- EXCHANGE_FAILURE (R32)
  | exchangeSuccess (frame : List Byte)                        -- EXCHANGE_SUCCESS (R32)
  -- limit events
  | unreachable (slot : Fin 24)                                -- UNREACHABLE (R14)
  | commissionFailure (slot : Fin 24)                          -- COMMISSION_FAILURE (R9)
  | beginTurnsLimit (slot : Fin 24)                            -- BEGIN_TURNS_LIMIT (R150)
  | repairLimit (slot : Fin 24) (indices : List Nat)           -- REPAIR_LIMIT (R154)
  | thirdAbort (slot : Fin 24)                                 -- THIRD_ABORT (R119)
  | memberFinalFailure (slot : Fin 24) (flaw : WaveFlaw)       -- MEMBER_FINAL_FAILURE (R156)
  -- end of round
  | dataBroadcast                                              -- DATA_BROADCAST (R38)
  | sweepStart                                                 -- SWEEP_START (R40)
  | discoveryReply (replySlot : Fin 8) (frame : List Byte)     -- DISCOVERY_REPLY (R3)
  | sweepWindowClose                                           -- SWEEP_WINDOW_CLOSE (R40)
  | haltSend                                                   -- HALT_SEND (R41)
  | resetNReleased                                             -- RESET_N_RELEASED (R177)
  deriving DecidableEq, Repr

end Sys2Proof
end

