-- ==== Sys2Proof/Decode.lean ====
section
/-!
DEFINITION. The command that a word of the opcode table spells. spec/opcode_table.json gives none of its 105 rows any
bits, so no word spells a command. How a request travels in bytes is Machine/Requests.lean, how a reply does
Machine/Obm.lean.
-/
namespace Sys2Proof

/-- No row of the table has bits. -/
def decodeTableWord (_nbits _w : Nat) : Option Instr := none

end Sys2Proof
end

