-- ==== Sys2Proof/Machine/State.lean ====
section
/-!
DEFINITION. The state of the FX24 as plain data, every piece that a rule of spec/ names, and the state after
power-on. Host side (`Port`), site-wide settings and clock (`Env`), the blocks' records (`Recs`), and the queue of
waiting commands. INVENTORY.md lists each field with its rule.
-/
namespace Sys2Proof.Machine

/-! ## Outcome reasons -/

/-- The part has no fault: no rule of the spec stops it, a request that cannot be taken is answered with a status
(R171) and a bad reply fails its attempt (R31). Nobody raises one. Safe: nothing is cut short. -/
inductive Fault where
  deriving DecidableEq, Repr

/-- Why a command has no meaning. -/
inductive Refusal where
  /-- Raised by an arm of `exec` whose row has no meaning yet. Safe: nothing can be proved of the row. No arm raises it. -/
  | notModelled (mnemonic : String)
  deriving DecidableEq, Repr

/-! ## Named values (codes in 12.2 where they travel) -/

inductive Phase where
  | restore | live
  deriving DecidableEq, Repr

inductive ResetCause where
  | power | hostFull
  deriving DecidableEq, Repr

inductive Mode where
  | trading | prep | closed
  deriving DecidableEq, Repr

inductive Activity where
  | idle | cooking | cleaning | updating
  deriving DecidableEq, Repr

/-- Hold strength, HARD above SOFT above NONE (R135). -/
inductive Strength where
  | none | soft | hard
  deriving DecidableEq, Repr

inductive Level where
  | light | medium | heavy | intensive
  deriving DecidableEq, Repr

inductive Severity where
  | notice | degraded | stop
  deriving DecidableEq, Repr

inductive Lifecycle where
  | addressing | profiling | loading | inService | rejoining | failed | retiring
  deriving DecidableEq, Repr

inductive CommStep where
  | assign | capsReq | release
  deriving DecidableEq, Repr

inductive CookMode where
  | convection | steam | combi | hold
  deriving DecidableEq, Repr

inductive RecipeState where
  | draft | published | withdrawn
  deriving DecidableEq, Repr

inductive EntryState where
  | loading | current | stale | dropping
  deriving DecidableEq, Repr

inductive OblState where
  | due | granted | running
  deriving DecidableEq, Repr

/-- The grant telegram of a slot (R106). -/
inductive GrantTelegram where
  | none | owed | sent
  deriving DecidableEq, Repr

inductive ArbiterMode where
  | fixed | rotate
  deriving DecidableEq, Repr

inductive TicketState where
  | opened | acked | dispatched | resolved
  deriving DecidableEq, Repr

inductive Origin where
  | oven | part
  deriving DecidableEq, Repr

inductive Route where
  | local | remote | both
  deriving DecidableEq, Repr

inductive CampaignState where
  | opened | running | paused | cancelling | finished | cancelled
  deriving DecidableEq, Repr

inductive WavePhase where
  | none | forming | streaming | repair
  deriving DecidableEq, Repr

inductive MemberState where
  | queued | deferred | transfer | repair | verify | ready | activating | done | failed
  deriving DecidableEq, Repr

inductive DeferReason where
  | notInService | unreachable | held | ticket | model | alreadyCurrent
  deriving DecidableEq, Repr

inductive FailReason where
  | gaps | repairLimit | crc | refused | timeout | rollback
  deriving DecidableEq, Repr

/-- A member's owed telegram (R144). -/
inductive Owed where
  | begin | finish | verify | activate
  deriving DecidableEq, Repr

/-- Status codes of a response (R171). -/
inductive Status where
  | ok | frameError | unknownRequest | badLength | badValue | notFound | noSpace | inUse | wrongState | wrongRoute
  | staleVersion | notWanted | notLive | notRestore
  deriving DecidableEq, Repr

/-- Attention causes in the order of R172, so that a cause's number is its place. -/
inductive Cause where
  | discovered | commissionDone | commissionFailed | ticketLocal | ticketRemote | ticketRepeat | cleanDue | cleanOverdue
  | zoneStop | chunkWanted | campaign | sync | recipeReleased | unreachable | persist | modeChanged
  deriving DecidableEq, Repr

/-! ## Host port (chapter 10) -/

inductive PortState where
  | idle | busy | ready
  deriving DecidableEq, Repr

/-- A response: the request code echoed, the status, the payload (R170). -/
structure Response where
  code    : Byte
  status  : Status
  payload : List Byte
  deriving DecidableEq, Repr

/-- The host port's own state (R167, R178). -/
structure Port where
  state    : PortState
  /-- The request buffer: the request taken in and not yet answered. -/
  request  : Option Instr
  /-- The response buffer. -/
  response : Option Response
  overrun  : Bool
  /-- The bytes the part shifted out on SDO in the last transaction (R166). -/
  shifted  : List Byte
  deriving DecidableEq, Repr

/-- The port after power-on (R178). -/
def Port.reset : Port := { state := .idle, request := none, response := none, overrun := false, shifted := [] }

/-! ## Site-wide settings and clock -/

/-- One mode profile (R45), less the field that the part fixes. -/
structure Profile where
  limit    : Nat
  activate : Bool
  rate     : Nat
  interval : Nat
  link     : Bool
  push     : Bool
  deriving DecidableEq, Repr

/-- The three profiles (R45). -/
structure Profiles where
  trading : Profile
  prep    : Profile
  closed  : Profile
  deriving DecidableEq, Repr

/-- A schedule entry (R47). -/
structure SchedEntry where
  minute : Nat
  mode   : Mode
  deriving DecidableEq, Repr

/-- The soil settings (R91). -/
structure SoilSettings where
  wConvection   : Nat
  wSteam        : Nat
  wCombi        : Nat
  wHold         : Nat
  defaultFactor : Nat
  manualFactor  : Nat
  reload        : Nat
  t1 : Nat
  t2 : Nat
  t3 : Nat
  t4 : Nat
  creditLight   : Nat
  creditMedium  : Nat
  creditHeavy   : Nat
  deriving DecidableEq, Repr

/-- The cleaning settings (R107). -/
structure CleanSettings where
  graceLight     : Nat
  graceMedium    : Nat
  graceHeavy     : Nat
  graceIntensive : Nat
  window         : Nat
  lockDelay      : Nat
  arbiter        : ArbiterMode
  first          : Fin 24
  deriving DecidableEq, Repr

/-- What the blocks read but no oven event writes: phase, clock, mode, settings, line levels. -/
structure Env where
  phase      : Phase
  cause      : ResetCause
  /-- RESET_N is held asserted (R177). -/
  held       : Bool
  /-- The level of STOP0 to STOP3, true for asserted (R139). -/
  lines      : Vector Bool 4
  /-- The attention enable set (R172). -/
  enable     : BitVec 16
  /-- Milliseconds since reset (R43). -/
  tick       : Nat
  /-- The minute fraction, 0..59,999 ms (R43). -/
  fraction   : Nat
  minute     : Minute
  clockValid : Bool
  offset     : Nat
  mode       : Mode
  overridden : Bool
  profiles   : Profiles
  reserves   : Vector Nat 4
  schedule   : List SchedEntry
  soil       : SoilSettings
  clean      : CleanSettings
  routes     : Vector Route 32
  discovery  : Nat
  deriving DecidableEq, Repr

/-- The default profiles (R45). -/
def Profiles.reset : Profiles :=
  { trading := { limit := 1, activate := false, rate := 1, interval := 200, link := true, push := false }
    prep := { limit := 3, activate := false, rate := 2, interval := 200, link := true, push := true }
    closed := { limit := 8, activate := true, rate := 4, interval := 1000, link := false, push := true } }

/-- The default soil settings (R91). -/
def SoilSettings.reset : SoilSettings :=
  { wConvection := 4, wSteam := 1, wCombi := 6, wHold := 1, defaultFactor := 4, manualFactor := 5, reload := 1200,
    t1 := 2000, t2 := 5000, t3 := 10000, t4 := 20000, creditLight := 2500, creditMedium := 6000, creditHeavy := 12000 }

/-- The default cleaning settings (R107). -/
def CleanSettings.reset : CleanSettings :=
  { graceLight := 720, graceMedium := 360, graceHeavy := 180, graceIntensive := 60, window := 30, lockDelay := 120,
    arbiter := .rotate, first := 0 }

/-- Settings and clock after power-on (R54, R105, R124, R142, R178, R179). The line levels, `held` and the tick are
DESIGN CHOICE (log 3). -/
def Env.reset : Env :=
  { phase := .restore, cause := .power, held := false, lines := Vector.replicate 4 false, enable := 0#16, tick := 0,
    fraction := 0, minute := 0#32, clockValid := false, offset := 0, mode := .trading, overridden := false,
    profiles := Profiles.reset, reserves := Vector.replicate 4 1, schedule := [], soil := SoilSettings.reset,
    clean := CleanSettings.reset, routes := Vector.replicate 32 .local, discovery := 10 }

/-! ## Records -/

/-- The cook context (R1). -/
structure CookCtx where
  recipe    : Nat
  version   : Option Nat
  startedAt : Minute
  counted   : Bool
  deriving DecidableEq, Repr

/-- An oven's capability (R1). -/
structure Capability where
  tempMin   : Nat
  tempMax   : Nat
  steam     : Bool
  probe     : Bool
  maxStages : Nat
  capacity  : Nat
  deriving DecidableEq, Repr

/-- The four soil values (R90). -/
structure Soil where
  score   : Nat
  residue : Nat
  hygiene : Nat
  carry   : Nat
  deriving DecidableEq, Repr

/-- A cleaning grant (R106). -/
structure Grant where
  level    : Level
  issuedAt : Minute
  sequence : Nat
  deriving DecidableEq, Repr

/-- A cleaning obligation (R106). -/
structure Obligation where
  level    : Level
  raisedAt : Minute
  deadline : Minute
  state    : OblState
  overdue  : Bool
  locked   : Bool
  aborts   : Nat
  grant    : Option Grant
  deriving DecidableEq, Repr

/-- A carried entry (R76). In the RESTORE phase it has no state (R88). -/
structure Entry where
  id      : Nat
  held    : Option Nat
  wanted  : Option Nat
  state   : Option EntryState
  clamped : Bool
  deriving DecidableEq, Repr

/-- Work in flight (R73): a drop, or a load of a version. -/
structure InFlight where
  id        : Nat
  load      : Option Nat
  delivered : Bool
  clamped   : Bool
  deriving DecidableEq, Repr

/-- An oven record (R1) with the fields that the other blocks keep in it. -/
structure Oven where
  serial        : Serial
  model         : Nat
  zone          : Fin 4
  group         : Fin 8
  lifecycle     : Lifecycle
  served        : Bool
  step          : Option CommStep
  /-- The retirement release has become due (R22). -/
  releaseDue    : Bool
  unreachable   : Bool
  activity      : Activity
  cook          : Option CookCtx
  capability    : Option Capability
  firmware      : Firmware
  retireForced  : Bool
  lastHeard     : Minute
  soil          : Soil
  obligation    : Option Obligation
  grantTelegram : GrantTelegram
  revokeOwed    : Bool
  /-- HOST_HOLD with its strength: true for HARD (R20). -/
  hostHold      : Option Bool
  /-- OVERDUE_LOCK (R135). -/
  overdueLock   : Bool
  /-- UPDATE (R135). -/
  updateHold    : Bool
  untracked     : Option Severity
  /-- The applied strength, none for unknown (R138). -/
  applied       : Option Strength
  mismatch      : Bool
  carried       : List Entry
  refused       : List (Nat × Nat)
  target        : List (Nat × Nat)
  unfit         : Nat
  overflow      : Nat
  clearPending  : Bool
  inFlight      : Option InFlight
  missed        : Nat
  /-- The accepted event tag (R37). -/
  tag           : Option Bool
  /-- The abort owed: the campaign id of an UPDATE_ABORT to be sent (R144). -/
  abortOwed     : Option Nat
  deriving DecidableEq, Repr

/-- A discovery entry (R3). -/
structure Discovered where
  serial    : Serial
  model     : Nat
  firmware  : Firmware
  sightings : Nat
  firstSeen : Minute
  deriving DecidableEq, Repr

/-- How a stage ends (R56). -/
inductive StageEnd where
  | time (duration : Nat)
  | probe (core cap : Nat)
  deriving DecidableEq, Repr

/-- A stage entry (R56). -/
structure Stage where
  mode     : CookMode
  setpoint : Nat
  humidity : Nat
  fan      : Nat
  stop     : StageEnd
  deriving DecidableEq, Repr

/-- A recipe record (R55). Its carrier and cook counts are derived (log 6). -/
structure Recipe where
  id      : Nat
  version : Nat
  name    : List Byte
  factor  : Nat
  mask    : Byte
  rank    : Nat
  state   : RecipeState
  stages  : List Stage
  deriving DecidableEq, Repr

/-- A ticket (R125). -/
structure Ticket where
  number      : Nat
  slot        : Fin 24
  cls         : Fin 32
  code        : BitVec 16
  severity    : Severity
  state       : TicketState
  origin      : Origin
  route       : Route
  occurrences : Nat
  repeated    : Bool
  cleared     : Bool
  openedAt    : Minute
  lastAt      : Minute
  resolvedAt  : Option Minute
  deriving DecidableEq, Repr

/-- A campaign member (R144). -/
structure Member where
  slot       : Fin 24
  state      : MemberState
  defer      : Option DeferReason
  fail       : Option FailReason
  attempts   : Nat
  wave       : Bool
  beginTurns : Nat
  repairs    : Nat
  gaps       : List Nat
  complete   : Bool
  owed       : Option Owed
  timer      : Option Nat
  /-- The telegram owed has been selected for an exchange since it was owed: an UPDATE_ACTIVATE has been put on the line
  (R165), and a reply ends an exchange that carried it (R151). -/
  onLine     : Bool
  /-- Returned to READY by R160 and not to be activated before the oven's next turn begins (R158). -/
  waits      : Bool
  deriving DecidableEq, Repr

/-- A chunk in the window (R143). -/
structure Chunk where
  index : Nat
  data  : List Byte
  deriving DecidableEq, Repr

/-- The campaign record (R143). The chunk count is derived from the length. -/
structure Campaign where
  id       : Nat
  model    : Nat
  firmware : Firmware
  length   : Nat
  crc      : BitVec 32
  waveSize : Nat
  state    : CampaignState
  members  : List Member
  phase    : WavePhase
  cursor   : Nat
  wanted   : List Nat
  window   : List Chunk
  repaired : List Nat
  deriving DecidableEq, Repr

/-! ## The bus master (chapter 2) -/

/-- The telegram kinds (R189). -/
inductive Kind where
  | poll | assign | capsReq | clearSet | recipeLoad | recipeDrop | cleanGrant | grantRevoke | updateBegin | updateEnd
  | updateVerify | updateActivate | updateAbort | release | discover | halt | data
  deriving DecidableEq, Repr

/-- Which owner supplied an exchange's telegram, with what it needs to take the outcome (R29). -/
inductive Work where
  | assign
  | capsReq
  | release (retirement : Bool)
  | revoke
  | grant (level : Level)
  | abort (campaign : Nat)
  | update (owed : Owed)
  | clearSet
  | drop (id : Nat)
  | load (id version : Nat)
  | poll
  deriving DecidableEq, Repr

/-- The exchange in progress (R26, R29): the telegram held, the attempts made and the strength that the last
attempt carried (R138). -/
structure Exchange where
  work     : Work
  kind     : Kind
  address  : Byte
  /-- The payload after the control byte. -/
  payload  : List Byte
  attempts : Nat
  carried  : Strength
  deriving DecidableEq, Repr

/-- Where the bus master stands. -/
inductive BusPhase where
  /-- RESTORE phase: nothing is sent (R26). -/
  | silent
  /-- Between the end of a round and the start of the next (R27). -/
  | waiting
  /-- In a turn, before its next exchange (R29). -/
  | turn
  /-- An attempt has been sent and the part listens (R31). -/
  | listening
  /-- An attempt has failed (R31). -/
  | attemptFailed
  /-- The DATA step (R38). -/
  | data
  /-- A sweep is due (R39). -/
  | sweepDue
  /-- The listening window of a sweep (R40). -/
  | window
  deriving DecidableEq, Repr

/-- A HALT queue entry: zone and sends remaining (R41). -/
structure HaltEntry where
  zone  : Fin 4
  sends : Nat
  deriving DecidableEq, Repr

/-- The bus master's state (R26). -/
structure Obm where
  phase     : BusPhase
  round     : Nat
  startTick : Option Nat
  interval  : Nat
  rate      : Nat
  /-- The turn position. -/
  position  : Option (Fin 24)
  /-- The slot in turn has been freed during its turn (R28). -/
  freed     : Bool
  exchange  : Option Exchange
  /-- Exchanges made in the turn. -/
  exchanges : Nat
  /-- The more-events flag of the last valid reply (R35). -/
  more      : Bool
  /-- The round has given a turn (R39). -/
  hadTurn   : Bool
  /-- DATA broadcasts of this round (R38). -/
  dataSent  : Nat
  seed      : Nat
  sweepNow  : Bool
  /-- The reply slots of the present window in which a frame has been heard (R40). -/
  heard     : Vector Bool 8
  halts     : List HaltEntry
  /-- The last frame the part put on the line. -/
  line      : List Byte
  deriving DecidableEq, Repr

/-- The bus master after power-on (R26); the fields that R26 does not name are DESIGN CHOICE (log 3). -/
def Obm.reset : Obm :=
  { phase := .silent, round := 0, startTick := none, interval := 0, rate := 0, position := none, freed := false,
    exchange := none, exchanges := 0, more := false, hadTurn := false, dataSent := 0, seed := 0, sweepNow := false,
    heard := Vector.replicate 8 false, halts := [], line := [] }

/-! ## Persist flags (chapter 11) -/

/-- The 219 persist flags, true for DIRTY, and the dirty count (R179). -/
structure Persist where
  settings : Bool
  schedule : Bool
  ovens    : Vector Bool 24
  recipes  : Vector Bool 128
  tickets  : Vector Bool 64
  campaign : Bool
  count    : Nat
  deriving DecidableEq, Repr

/-- Every flag CLEAN, the count 0 (R179). -/
def Persist.reset : Persist :=
  { settings := false, schedule := false, ovens := Vector.replicate 24 false, recipes := Vector.replicate 128 false,
    tickets := Vector.replicate 64 false, campaign := false, count := 0 }

/-- The blocks' records. -/
structure Recs where
  ovens      : Vector (Option Oven) 24
  discovered : List Discovered
  ignored    : List Serial
  recipes    : Vector (Option Recipe) 128
  tickets    : Vector (Option Ticket) 64
  nextTicket : Nat
  /-- The zone stop latches (R139). -/
  latches    : Vector Bool 4
  campaign   : Option Campaign
  /-- The working first-priority slot (R106). -/
  first      : Fin 24
  /-- The next issue sequence number (R106). -/
  sequence   : Nat
  obm        : Obm
  persist    : Persist
  /-- The latched attention set (R172). -/
  latched    : BitVec 16
  deriving DecidableEq, Repr

/-- The records after power-on: no record of any kind (R23, R26, R72, R124, R142, R165, R179). -/
def Recs.reset : Recs :=
  { ovens := Vector.replicate 24 none, discovered := [], ignored := [], recipes := Vector.replicate 128 none,
    tickets := Vector.replicate 64 none, nextTicket := 1, latches := Vector.replicate 4 false, campaign := none,
    first := 0, sequence := 1, obm := Obm.reset, persist := Persist.reset, latched := 0#16 }

/-- Everything but the host port and the queue: what the owning blocks read and write. -/
structure Site where
  env  : Env
  recs : Recs
  deriving DecidableEq, Repr

/-- The machine: port, site, and the commands that wait, first in, first out (log 1). -/
structure State where
  port    : Port
  site    : Site
  pending : List Instr
  deriving DecidableEq, Repr

/-- The machine right after power-on, with no STOP line asserted and nothing waiting. -/
def State.reset : State :=
  { port := Port.reset, site := { env := Env.reset, recs := Recs.reset }, pending := [] }

end Sys2Proof.Machine
end

