-- ==== Sys2Proof/Machine/Operands.lean ====
section
/-!
DEFINITION. How operands and fields travel: little-endian numbers, the two CRCs (R189), and the code of every named
value (12.1, 12.2). A function `xOfCode` answers none for a code that names nothing; the reader of the field says what
such a code is read as.
-/
namespace Sys2Proof.Machine

/-! ## Numbers in bytes -/

/-- The byte at place `k`, 0 beyond the end. -/
def byteAt (b : List Byte) (k : Nat) : Byte := b.getD k 0#8

/-- The number whose bytes are given, low byte first (chapter 12). -/
def leNat : List Byte → Nat
  | [] => 0
  | x :: xs => x.toNat + 256 * leNat xs

/-- The number of `n` bytes at place `k`, low byte first. -/
def numAt (b : List Byte) (k n : Nat) : Nat := leNat ((b.drop k).take n)

/-- `n` bytes of a number, low byte first. -/
def leBytes : (n : Nat) → Nat → List Byte
  | 0, _ => []
  | n + 1, v => BitVec.ofNat 8 v :: leBytes n (v / 256)

def u8 (v : Nat) : List Byte := leBytes 1 v
def u16 (v : Nat) : List Byte := leBytes 2 v
def u32 (v : Nat) : List Byte := leBytes 4 v
def u48 (v : Nat) : List Byte := leBytes 6 v

/-- A flag or mark in one byte: 1 for set, 0 for clear (R187). -/
def flag (b : Bool) : List Byte := [if b then 1#8 else 0#8]

/-- A flag read from its defined bit, undefined bits ignored (R187). -/
def bitOf (b : Byte) (k : Nat) : Bool := b.getLsbD k

/-- A list preceded by a 1-byte count (R187). -/
def counted (items : List (List Byte)) : List Byte := u8 items.length ++ items.flatten

/-- An optional value: a presence byte, then the value, or zeros of its width when absent (R187). -/
def optional (width : Nat) : Option (List Byte) → List Byte
  | some v => 1#8 :: v
  | none => 0#8 :: List.replicate width 0#8

/-- A record that may be vacant: a body length of 2 bytes, then the body; length 0 is the vacancy marker (R187). -/
def body (b : List Byte) : List Byte := u16 b.length ++ b

/-- `b` cut or filled with zeros to `n` bytes. -/
def padTo (n : Nat) (b : List Byte) : List Byte := (b ++ List.replicate n 0#8).take n

/-! ## CRCs (R189) -/

/-- One bit of the CRC-16: polynomial 0x1021, most significant bit first. -/
def crc16Bit (c : BitVec 16) : BitVec 16 := if c.msb then (c <<< 1) ^^^ 0x1021#16 else c <<< 1

/-- One byte of the CRC-16. -/
def crc16Byte (c : BitVec 16) (b : Byte) : BitVec 16 :=
  let c0 := c ^^^ (b.zeroExtend 16 <<< 8)
  crc16Bit (crc16Bit (crc16Bit (crc16Bit (crc16Bit (crc16Bit (crc16Bit (crc16Bit c0)))))))

/-- The CRC-16: initial value 0xFFFF, no final XOR. -/
def crc16 (b : List Byte) : BitVec 16 := b.foldl crc16Byte 0xFFFF#16

/-- The CRC-16 as sent, high byte first. -/
def crc16Bytes (b : List Byte) : List Byte :=
  let c := (crc16 b).toNat
  [BitVec.ofNat 8 (c / 256), BitVec.ofNat 8 c]

/-- One bit of the CRC-32: reflected polynomial 0xEDB88320. -/
def crc32Bit (c : BitVec 32) : BitVec 32 := if c.getLsbD 0 then (c >>> 1) ^^^ 0xEDB88320#32 else c >>> 1

/-- One byte of the CRC-32. -/
def crc32Byte (c : BitVec 32) (b : Byte) : BitVec 32 :=
  let c0 := c ^^^ b.zeroExtend 32
  crc32Bit (crc32Bit (crc32Bit (crc32Bit (crc32Bit (crc32Bit (crc32Bit (crc32Bit c0)))))))

/-- The CRC-32: initial value and final XOR 0xFFFFFFFF. -/
def crc32 (b : List Byte) : BitVec 32 := b.foldl crc32Byte 0xFFFFFFFF#32 ^^^ 0xFFFFFFFF#32

/-! ## Slots and zones -/

/-- A slot byte: none above 23. -/
def slotOf (b : Byte) : Option (Fin 24) := if h : b.toNat < 24 then some ⟨b.toNat, h⟩ else none

/-- A zone byte: none above 3. -/
def zoneOf (b : Byte) : Option (Fin 4) := if h : b.toNat < 4 then some ⟨b.toNat, h⟩ else none

/-- A zone clamped into 0..3. -/
def zoneClamped (n : Nat) : Fin 4 := Fin.ofNat 4 (clamp 0 3 n)

/-- A menu group clamped into 0..7. -/
def groupClamped (n : Nat) : Fin 8 := Fin.ofNat 8 (clamp 0 7 n)

/-- A slot clamped into 0..23. -/
def slotClamped (n : Nat) : Fin 24 := Fin.ofNat 24 (clamp 0 23 n)

/-- The bus address of a slot: slot + 1 (R1). -/
def addressOf (i : Fin 24) : Byte := BitVec.ofNat 8 (i.val + 1)

/-! ## Codes -/

def firmwareBytes (f : Firmware) : List Byte := [f.major, f.minor] ++ u16 f.build.toNat

/-- A firmware version at place `k` of a frame: 4 bytes. -/
def firmwareAt (b : List Byte) (k : Nat) : Firmware :=
  { major := byteAt b k, minor := byteAt b (k + 1), build := BitVec.ofNat 16 (numAt b (k + 2) 2) }

def Phase.code : Phase → Nat
  | .restore => 0 | .live => 1

def ResetCause.code : ResetCause → Nat
  | .power => 0 | .hostFull => 1

def Mode.code : Mode → Nat
  | .trading => 0 | .prep => 1 | .closed => 2

def modeOfCode : Nat → Option Mode
  | 0 => some .trading | 1 => some .prep | 2 => some .closed | _ => none

def Activity.code : Activity → Nat
  | .idle => 0 | .cooking => 1 | .cleaning => 2 | .updating => 3

def activityOfCode : Nat → Option Activity
  | 0 => some .idle | 1 => some .cooking | 2 => some .cleaning | 3 => some .updating | _ => none

def Strength.code : Strength → Nat
  | .none => 0 | .soft => 1 | .hard => 2

/-- A strength code; one that names nothing is HARD (12.2, R190). -/
def strengthOfCode : Nat → Strength
  | 0 => .none | 1 => .soft | _ => .hard

def CookMode.code : CookMode → Nat
  | .convection => 0 | .steam => 1 | .combi => 2 | .hold => 3

def cookModeOfCode : Nat → Option CookMode
  | 0 => some .convection | 1 => some .steam | 2 => some .combi | 3 => some .hold | _ => none

def Level.code : Level → Nat
  | .light => 0 | .medium => 1 | .heavy => 2 | .intensive => 3

def levelOfCode : Nat → Option Level
  | 0 => some .light | 1 => some .medium | 2 => some .heavy | 3 => some .intensive | _ => none

/-- A level from an oven: a code that names nothing is LIGHT (12.2). -/
def levelRead (n : Nat) : Level := (levelOfCode n).getD .light

def Severity.code : Severity → Nat
  | .notice => 1 | .degraded => 2 | .stop => 3

/-- A severity with 0 for none (12.2). -/
def severityCode (s : Option Severity) : Nat := (s.map Severity.code).getD 0

/-- A severity field that may be none: above 3 is STOP (12.2). -/
def severityOfCode : Nat → Option Severity
  | 0 => none | 1 => some .notice | 2 => some .degraded | _ => some .stop

/-- The severity of a FAULT: 0 is NOTICE, above 3 is STOP (12.2). -/
def faultSeverity (n : Nat) : Severity := (severityOfCode n).getD .notice

def Lifecycle.code : Lifecycle → Nat
  | .addressing => 0 | .profiling => 1 | .loading => 2 | .inService => 3 | .rejoining => 4 | .failed => 5 | .retiring => 6

def lifecycleOfCode : Nat → Option Lifecycle
  | 0 => some .addressing | 1 => some .profiling | 2 => some .loading | 3 => some .inService | 4 => some .rejoining
  | 5 => some .failed | 6 => some .retiring | _ => none

/-- Commissioning step, none first (R187: coded from 0 in the order of R1). -/
def stepCode : Option CommStep → Nat
  | none => 0 | some .assign => 1 | some .capsReq => 2 | some .release => 3

def RecipeState.code : RecipeState → Nat
  | .draft => 0 | .published => 1 | .withdrawn => 2

def recipeStateOfCode : Nat → Option RecipeState
  | 0 => some .draft | 1 => some .published | 2 => some .withdrawn | _ => none

/-- Carried entry states in the order of R76. -/
def EntryState.code : EntryState → Nat
  | .loading => 0 | .current => 1 | .stale => 2 | .dropping => 3

def OblState.code : OblState → Nat
  | .due => 0 | .granted => 1 | .running => 2

def oblStateOfCode : Nat → Option OblState
  | 0 => some .due | 1 => some .granted | 2 => some .running | _ => none

def GrantTelegram.code : GrantTelegram → Nat
  | .none => 0 | .owed => 1 | .sent => 2

def ArbiterMode.code : ArbiterMode → Nat
  | .fixed => 0 | .rotate => 1

def arbiterOfCode : Nat → Option ArbiterMode
  | 0 => some .fixed | 1 => some .rotate | _ => none

def TicketState.code : TicketState → Nat
  | .opened => 0 | .acked => 1 | .dispatched => 2 | .resolved => 3

def ticketStateOfCode : Nat → Option TicketState
  | 0 => some .opened | 1 => some .acked | 2 => some .dispatched | 3 => some .resolved | _ => none

/-- Origins in the order of R125: DESIGN CHOICE (log 11), as 12.2 lists no codes for the origin byte of a TICKET image. -/
def Origin.code : Origin → Nat
  | .oven => 0 | .part => 1

def Route.code : Route → Nat
  | .local => 0 | .remote => 1 | .both => 2

/-- A route code: 2 and 3 are BOTH (R126), and so is a code of an image that names nothing (12.2). A SET_ROUTE code above 3 is
BOTH: DESIGN CHOICE (log 11). -/
def routeOfCode : Nat → Route
  | 0 => .local | 1 => .remote | _ => .both

def CampaignState.code : CampaignState → Nat
  | .opened => 0 | .running => 1 | .paused => 2 | .cancelling => 3 | .finished => 4 | .cancelled => 5

def campaignStateOfCode : Nat → Option CampaignState
  | 0 => some .opened | 1 => some .running | 2 => some .paused | 3 => some .cancelling | 4 => some .finished
  | 5 => some .cancelled | _ => none

/-- Wave phases in the order of R143. -/
def WavePhase.code : WavePhase → Nat
  | .none => 0 | .forming => 1 | .streaming => 2 | .repair => 3

def MemberState.code : MemberState → Nat
  | .queued => 0 | .deferred => 1 | .transfer => 2 | .repair => 3 | .verify => 4 | .ready => 5 | .activating => 6
  | .done => 7 | .failed => 8

def memberStateOfCode : Nat → Option MemberState
  | 0 => some .queued | 1 => some .deferred | 2 => some .transfer | 3 => some .repair | 4 => some .verify
  | 5 => some .ready | 6 => some .activating | 7 => some .done | 8 => some .failed | _ => none

/-- Deferral reasons: absent 0, then the order of R144 from 1. -/
def deferCode : Option DeferReason → Nat
  | none => 0 | some .notInService => 1 | some .unreachable => 2 | some .held => 3 | some .ticket => 4
  | some .model => 5 | some .alreadyCurrent => 6

def deferOfCode : Nat → Option DeferReason
  | 1 => some .notInService | 2 => some .unreachable | 3 => some .held | 4 => some .ticket | 5 => some .model
  | 6 => some .alreadyCurrent | _ => none

/-- Failure reasons: absent 0, then the order of R144 from 1. -/
def failCode : Option FailReason → Nat
  | none => 0 | some .gaps => 1 | some .repairLimit => 2 | some .crc => 3 | some .refused => 4 | some .timeout => 5
  | some .rollback => 6

def failOfCode : Nat → Option FailReason
  | 1 => some .gaps | 2 => some .repairLimit | 3 => some .crc | 4 => some .refused | 5 => some .timeout
  | 6 => some .rollback | _ => none

/-- Owed telegrams in the order of R144, none first. -/
def owedCode : Option Owed → Nat
  | none => 0 | some .begin => 1 | some .finish => 2 | some .verify => 3 | some .activate => 4

def Status.code : Status → Byte
  | .ok => 0x00#8 | .frameError => 0x01#8 | .unknownRequest => 0x02#8 | .badLength => 0x03#8 | .badValue => 0x04#8
  | .notFound => 0x05#8 | .noSpace => 0x06#8 | .inUse => 0x07#8 | .wrongState => 0x08#8 | .wrongRoute => 0x09#8
  | .staleVersion => 0x0A#8 | .notWanted => 0x0B#8 | .notLive => 0x0C#8 | .notRestore => 0x0D#8

def Kind.code : Kind → Byte
  | .poll => 0x01#8 | .assign => 0x02#8 | .capsReq => 0x03#8 | .clearSet => 0x04#8 | .recipeLoad => 0x05#8
  | .recipeDrop => 0x06#8 | .cleanGrant => 0x07#8 | .grantRevoke => 0x08#8 | .updateBegin => 0x09#8
  | .updateEnd => 0x0A#8 | .updateVerify => 0x0B#8 | .updateActivate => 0x0C#8 | .updateAbort => 0x0D#8
  | .release => 0x0E#8 | .discover => 0x40#8 | .halt => 0x41#8 | .data => 0x42#8

/-- A cause's number (R172). -/
def Cause.number : Cause → Nat
  | .discovered => 0 | .commissionDone => 1 | .commissionFailed => 2 | .ticketLocal => 3 | .ticketRemote => 4
  | .ticketRepeat => 5 | .cleanDue => 6 | .cleanOverdue => 7 | .zoneStop => 8 | .chunkWanted => 9 | .campaign => 10
  | .sync => 11 | .recipeReleased => 12 | .unreachable => 13 | .persist => 14 | .modeChanged => 15

/-- The set holding one cause: bit n is cause n (12.1). -/
def Cause.bit (c : Cause) : BitVec 16 := 1#16 <<< c.number

/-! ## Stages (R56, 12.2) -/

/-- A raw stage at place `k` of a frame: 8 bytes. -/
def rawStageAt (b : List Byte) (k : Nat) : RawStage :=
  { modeEnd := byteAt b k, fan := byteAt b (k + 1), humidity := byteAt b (k + 2), core := byteAt b (k + 3),
    setpoint := BitVec.ofNat 16 (numAt b (k + 4) 2), time := BitVec.ofNat 16 (numAt b (k + 6) 2) }

/-- `n` raw stages from place `k` on. -/
def rawStagesAt (b : List Byte) (k n : Nat) : List RawStage := (List.range n).map fun j => rawStageAt b (k + 8 * j)

/-- The humidity stored for a mode (R56). -/
def humidityFor (m : CookMode) (h : Nat) : Nat :=
  match m with
  | .convection => 0
  | .hold => 0
  | .steam => 100
  | .combi => clamp 0 100 h

/-- A raw stage brought into range (R56); none when its mode or end code names nothing. -/
def readStage (r : RawStage) : Option Stage :=
  match cookModeOfCode (r.modeEnd.toNat % 16) with
  | none => none
  | some m =>
    let made := fun stop => some
      ({ mode := m, setpoint := clamp 30 300 r.setpoint.toNat, humidity := humidityFor m r.humidity.toNat,
         fan := clamp 1 5 r.fan.toNat, stop := stop } : Stage)
    match r.modeEnd.toNat / 16 with
    | 0 => made (.time (clamp 1 14400 r.time.toNat))
    | 1 => made (.probe (clamp 20 99 r.core.toNat) (clamp 60 14400 r.time.toNat))
    | _ => none

/-- Whether bringing the stage into range changed a field of it (R61, R183). The core target of a TIME stage is no
field of it. -/
def stageClampedBy (r : RawStage) (t : Stage) : Bool :=
  decide (t.setpoint ≠ r.setpoint.toNat) || decide (t.humidity ≠ r.humidity.toNat) || decide (t.fan ≠ r.fan.toNat)
    || match t.stop with
       | .time d => decide (d ≠ r.time.toNat)
       | .probe c d => decide (c ≠ r.core.toNat) || decide (d ≠ r.time.toNat)

/-- Every stage of a list, or none when one names no mode or end (R60 check 2). -/
def readStages : List RawStage → Option (List Stage)
  | [] => some []
  | r :: rs =>
    match readStage r, readStages rs with
    | some t, some ts => some (t :: ts)
    | _, _ => none

/-- Whether any stage was changed to bring it into range. -/
def stagesClamped (rs : List RawStage) (ts : List Stage) : Bool :=
  (rs.zip ts).any fun p => stageClampedBy p.1 p.2

/-- A stage in its 8 bytes (12.2). -/
def Stage.bytes (t : Stage) : List Byte :=
  match t.stop with
  | .time d => u8 t.mode.code ++ u8 t.fan ++ u8 t.humidity ++ [0#8] ++ u16 t.setpoint ++ u16 d
  | .probe c d => u8 (t.mode.code + 16) ++ u8 t.fan ++ u8 t.humidity ++ u8 c ++ u16 t.setpoint ++ u16 d

/-! ## Names (R61, R187) -/

/-- A character outside 32..126 is stored as 63 (R61). -/
def printable (b : Byte) : Byte := if 32 ≤ b.toNat ∧ b.toNat ≤ 126 then b else 63#8

/-- A name of a length byte and 20 bytes as stored: cut to its first 20, unprintable characters replaced. -/
def nameStored (len : Byte) (name : List Byte) : List Byte := ((padTo 20 name).take len.toNat).map printable

/-- Whether storing the name changed it: longer than 20, or a character replaced. -/
def nameClamped (len : Byte) (name : List Byte) : Bool :=
  decide (20 < len.toNat) || decide (nameStored len name ≠ (padTo 20 name).take len.toNat)

/-- A name as sent: its length, then 20 bytes, those beyond the length 0 (R187). -/
def nameBytes (name : List Byte) : List Byte := u8 name.length ++ padTo 20 name

end Sys2Proof.Machine
end

