-- ==== Sys2Proof/Machine/Flags.lean ====
section
/-!
DEFINITION. Persist flags with the dirty count (R179, R180), and the attention flags: the latched set, the level
causes, the pending set and ATTN_N (R172, R173).
-/
namespace Sys2Proof.Machine

/-- The persisted indices (R179). -/
inductive Index where
  | settings | schedule
  | oven (i : Fin 24)
  | recipe (k : Fin 128)
  | ticket (k : Fin 64)
  | campaign
  deriving DecidableEq, Repr

/-- Whether an index is DIRTY. -/
def Persist.get (p : Persist) : Index → Bool
  | .settings => p.settings
  | .schedule => p.schedule
  | .oven i => p.ovens[i]
  | .recipe k => p.recipes[k]
  | .ticket k => p.tickets[k]
  | .campaign => p.campaign

/-- The flags with one of them written, the count untouched. -/
def Persist.put (p : Persist) (ix : Index) (v : Bool) : Persist :=
  match ix with
  | .settings => { p with settings := v }
  | .schedule => { p with schedule := v }
  | .oven i => { p with ovens := p.ovens.set i v }
  | .recipe k => { p with recipes := p.recipes.set k v }
  | .ticket k => { p with tickets := p.tickets.set k v }
  | .campaign => { p with campaign := v }

/-- Marking an index DIRTY: the count rises by one when the flag was CLEAN (R179, R180). -/
def Persist.mark (p : Persist) (ix : Index) : Persist :=
  if p.get ix then p else { p.put ix true with count := p.count + 1 }

/-- Making an index CLEAN: the count falls by one when the flag was DIRTY (R179). -/
def Persist.clean (p : Persist) (ix : Index) : Persist :=
  if p.get ix then { p.put ix false with count := p.count - 1 } else p

/-- How many flags are DIRTY, counted flag by flag: what the dirty count equals (R179). -/
def Persist.dirtyFlags (p : Persist) : Nat :=
  p.settings.toNat + p.schedule.toNat + p.ovens.toList.countP id + p.recipes.toList.countP id
    + p.tickets.toList.countP id + p.campaign.toNat

/-- The indices in the order in which SAVE_NEXT looks at them (R181). -/
def Index.all : List Index :=
  [.settings, .schedule] ++ (List.finRange 24).map .oven ++ (List.finRange 128).map .recipe
    ++ (List.finRange 64).map .ticket ++ [.campaign]

/-- The kind code and number of an index (12.4). -/
def Index.code : Index → Nat × Nat
  | .settings => (0, 0)
  | .schedule => (1, 0)
  | .oven i => (2, i.val)
  | .recipe k => (3, k.val)
  | .ticket k => (4, k.val)
  | .campaign => (5, 0)

/-- The index that a kind byte and a number byte name: none for a kind that names none of the six or a number outside
the kind's range (R183 check 1). -/
def indexOf (kind number : Nat) : Option Index :=
  match kind with
  | 0 => if number = 0 then some .settings else none
  | 1 => if number = 0 then some .schedule else none
  | 2 => if h : number < 24 then some (.oven ⟨number, h⟩) else none
  | 3 => if h : number < 128 then some (.recipe ⟨number, h⟩) else none
  | 4 => if h : number < 64 then some (.ticket ⟨number, h⟩) else none
  | 5 => if number = 0 then some .campaign else none
  | _ => none

/-- A persisted change marks its index (R180). -/
def Recs.mark (r : Recs) (ix : Index) : Recs := { r with persist := r.persist.mark ix }

/-- Latching a cause (R172). -/
def Recs.latch (r : Recs) (c : Cause) : Recs := { r with latched := r.latched ||| c.bit }

/-- The attention of a route: TICKET_LOCAL, TICKET_REMOTE or both (R127). -/
def Recs.latchRoute (r : Recs) (t : Route) : Recs :=
  match t with
  | .local => r.latch .ticketLocal
  | .remote => r.latch .ticketRemote
  | .both => (r.latch .ticketLocal).latch .ticketRemote

/-- A level cause's bit when its condition holds. -/
def levelBit (c : Cause) (b : Bool) : BitVec 16 := if b then c.bit else 0#16

/-- The level causes whose condition holds: DISCOVERED, ZONE_STOP, CHUNK_WANTED, PERSIST (R172). -/
def Recs.levels (r : Recs) : BitVec 16 :=
  levelBit .discovered (!r.discovered.isEmpty)
    ||| levelBit .zoneStop (r.latches.toList.any id)
    ||| levelBit .chunkWanted (match r.campaign with | some c => !c.wanted.isEmpty | none => false)
    ||| levelBit .persist (decide (0 < r.persist.count))

/-- The pending set: the latched set with the level causes that hold (R172). -/
def Recs.pendingSet (r : Recs) : BitVec 16 := r.latched ||| r.levels

/-- ATTN_N low: some cause is pending and enabled, and RESET_N is not held (R173). -/
def Site.attention (st : Site) : Bool :=
  !st.env.held && decide (st.recs.pendingSet &&& st.env.enable ≠ 0#16)

/-- The level of the ATTN_N pin: false is low, that is, attention (R173). -/
def State.attnN (s : State) : Bool := !s.site.attention

/-- The BUS_DE pin: high only while a frame is sent, and a step sends a frame whole (R25, log 2). -/
def State.busDE (_ : State) : Bool := false

/-- The port status byte: READY, BUSY, OVERRUN, ATTN, LIVE in bits 0 to 4 (R167, 12.1). -/
def State.statusByte (s : State) : Byte :=
  BitVec.ofNat 8 ((decide (s.port.state = .ready)).toNat + 2 * (decide (s.port.state = .busy)).toNat
    + 4 * s.port.overrun.toNat + 8 * s.site.attention.toNat + 16 * (decide (s.site.env.phase = .live)).toNat)

end Sys2Proof.Machine
end

