-- ==== Sys2Proof/Machine/Ops.lean ====
section
/-!
DEFINITION. The named operations over the records that every block shares: reading and writing a slot, the counts the
rules derive from the records, hold reasons and strength (R135), readiness (R111), and what an owner answers.
-/
namespace Sys2Proof.Machine

/-! ## Settings and clock -/

def Env.live (e : Env) : Bool := decide (e.phase = .live)

def Profiles.get (p : Profiles) : Mode → Profile
  | .trading => p.trading
  | .prep => p.prep
  | .closed => p.closed

def Profiles.put (p : Profiles) (m : Mode) (f : Profile) : Profiles :=
  match m with
  | .trading => { p with trading := f }
  | .prep => { p with prep := f }
  | .closed => { p with closed := f }

/-- The profile of the current mode (R45). -/
def Env.profile (e : Env) : Profile := e.profiles.get e.mode

/-- "zone reserves apply": fixed, yes in TRADING and PREP and no in CLOSED (R45). -/
def reservesApply : Mode → Bool
  | .trading => true
  | .prep => true
  | .closed => false

/-- The minute of day: the site minute plus the local offset modulo 1440, the sum a plain unsigned 32-bit one (R43). -/
def Env.minuteOfDay (e : Env) : Nat := (e.minute + BitVec.ofNat 32 e.offset).toNat % 1440

/-- A number of minutes as a site minute, for 32-bit sums. -/
def minutes (n : Nat) : Minute := BitVec.ofNat 32 n

/-- The grace of a level (R107). -/
def CleanSettings.grace (c : CleanSettings) : Level → Nat
  | .light => c.graceLight
  | .medium => c.graceMedium
  | .heavy => c.graceHeavy
  | .intensive => c.graceIntensive

/-! ## Slots -/

/-- The oven slots in ascending order. -/
def slots : List (Fin 24) := List.finRange 24

def Recs.oven (r : Recs) (i : Fin 24) : Option Oven := r.ovens[i]

def Recs.putOven (r : Recs) (i : Fin 24) (o : Option Oven) : Recs := { r with ovens := r.ovens.set i o }

/-- A change to volatile fields of an oven record; nothing on a free slot. -/
def Recs.modOven (r : Recs) (i : Fin 24) (f : Oven → Oven) : Recs :=
  match r.oven i with
  | some o => r.putOven i (some (f o))
  | none => r

/-- A change to persisted fields of an oven record, which marks its OVEN index (R1, R180). -/
def Recs.changeOven (r : Recs) (i : Fin 24) (f : Oven → Oven) : Recs :=
  match r.oven i with
  | some o => (r.putOven i (some (f o))).mark (.oven i)
  | none => r

/-- Whether the slot's record, if any, meets `p`. -/
def Recs.ovenIs (r : Recs) (i : Fin 24) (p : Oven → Bool) : Bool :=
  match r.oven i with
  | some o => p o
  | none => false

def Recs.lifecycleIs (r : Recs) (i : Fin 24) (l : Lifecycle) : Bool := r.ovenIs i fun o => decide (o.lifecycle = l)

def Recs.activityIs (r : Recs) (i : Fin 24) (a : Activity) : Bool := r.ovenIs i fun o => decide (o.activity = a)

/-- How many slots hold a record that meets `p`. -/
def Recs.countOvens (r : Recs) (p : Fin 24 → Oven → Bool) : Nat := slots.countP fun i => r.ovenIs i (p i)

def Recs.recipe (r : Recs) (k : Fin 128) : Option Recipe := r.recipes[k]

def Recs.putRecipe (r : Recs) (k : Fin 128) (x : Option Recipe) : Recs := { r with recipes := r.recipes.set k x }

def Recs.ticket (r : Recs) (k : Fin 64) : Option Ticket := r.tickets[k]

def Recs.putTicket (r : Recs) (k : Fin 64) (t : Option Ticket) : Recs := { r with tickets := r.tickets.set k t }

/-- A change of a ticket's field, which marks its TICKET index (R125). -/
def Recs.changeTicket (r : Recs) (k : Fin 64) (f : Ticket → Ticket) : Recs :=
  match r.ticket k with
  | some t => (r.putTicket k (some (f t))).mark (.ticket k)
  | none => r

/-- The ticket at a table place, if it meets `p`. -/
def Recs.ticketIs (r : Recs) (k : Fin 64) (p : Ticket → Bool) : Bool :=
  match r.ticket k with
  | some t => p t
  | none => false

def Recs.modObm (r : Recs) (f : Obm → Obm) : Recs := { r with obm := f r.obm }

/-! ## Campaign and members -/

/-- The chunk count N: L divided by 128 and rounded up (R143). -/
def Campaign.chunks (c : Campaign) : Nat := (c.length + 127) / 128

def Campaign.member (c : Campaign) (i : Fin 24) : Option Member := c.members.find? fun m => decide (m.slot = i)

def Campaign.modMember (c : Campaign) (i : Fin 24) (f : Member → Member) : Campaign :=
  { c with members := c.members.map fun m => if m.slot = i then f m else m }

def Recs.member (r : Recs) (i : Fin 24) : Option Member := r.campaign.bind fun c => c.member i

def Recs.modCampaign (r : Recs) (f : Campaign → Campaign) : Recs := { r with campaign := r.campaign.map f }

/-- A change to persisted fields of the campaign, which marks the CAMPAIGN index (R143). -/
def Recs.changeCampaign (r : Recs) (f : Campaign → Campaign) : Recs :=
  match r.campaign with
  | some c => { r with campaign := some (f c) }.mark .campaign
  | none => r

def Recs.modMember (r : Recs) (i : Fin 24) (f : Member → Member) : Recs := r.modCampaign fun c => c.modMember i f

def Recs.changeMember (r : Recs) (i : Fin 24) (f : Member → Member) : Recs := r.changeCampaign fun c => c.modMember i f

/-- Whether the slot has a member in state `s`. -/
def Recs.memberIs (r : Recs) (i : Fin 24) (s : MemberState) : Bool :=
  match r.member i with
  | some m => decide (m.state = s)
  | none => false

/-- The oven has a UPE member in ACTIVATING. -/
def Recs.activating (r : Recs) (i : Fin 24) : Bool := r.memberIs i .activating

/-! ## Counts derived from the records -/

/-- The number of grants outstanding: obligations in GRANTED (R106). -/
def Recs.grantsOut (r : Recs) : Nat :=
  r.countOvens fun _ o => match o.obligation with | some b => decide (b.state = .granted) | none => false

/-- The number of ovens cleaning (R106). -/
def Recs.cleaningCount (r : Recs) : Nat := r.countOvens fun _ o => decide (o.activity = .cleaning)

/-- The carrier count of (id, version): carried entries, across all ovens, whose held version names it (R66). -/
def Recs.carrierCount (r : Recs) (id version : Nat) : Nat :=
  r.countOvens fun _ o => o.carried.any fun c => decide (c.id = id) && decide (c.held = some version)

/-- The cook count of (id, version): counted cook contexts that name it (R67). -/
def Recs.cookCount (r : Recs) (id version : Nat) : Nat :=
  r.countOvens fun _ o => match o.cook with
    | some c => c.counted && decide (c.recipe = id) && decide (c.version = some version)
    | none => false

/-- Stage entries that belong to records (R57). -/
def Recs.poolUsed (r : Recs) : Nat :=
  (r.recipes.toList.map fun x => match x with | some c => c.stages.length | none => 0).sum

/-- The number of free pool entries (R57). -/
def Recs.poolFree (r : Recs) : Nat := Config.poolEntries - r.poolUsed

/-! ## Holds (R135) -/

/-- The hold reasons of an oven. -/
structure Reasons where
  zoneStop      : Bool
  stopTicket    : Bool
  untrackedStop : Bool
  /-- HOST_HOLD with its strength, true for HARD. -/
  hostHold      : Option Bool
  overdueLock   : Bool
  update        : Bool
  deriving DecidableEq, Repr

/-- Whether the slot has a live ticket that meets `p`. -/
def Recs.liveTicket (r : Recs) (i : Fin 24) (p : Ticket → Bool) : Bool :=
  (List.finRange 64).any fun k => r.ticketIs k fun t => decide (t.slot = i) && decide (t.state ≠ .resolved) && p t

/-- The reasons of a slot. ZONE_STOP, STOP_TICKET and UNTRACKED_STOP follow from the latches, the tickets and the
untracked severity; the other three are kept in the record (R135). A free slot has none. -/
def Recs.reasons (r : Recs) (i : Fin 24) : Reasons :=
  match r.oven i with
  | none => { zoneStop := false, stopTicket := false, untrackedStop := false, hostHold := none, overdueLock := false, update := false }
  | some o =>
    { zoneStop := r.latches[o.zone]
      stopTicket := r.liveTicket i fun t => decide (t.severity = .stop)
      untrackedStop := decide (o.untracked = some .stop)
      hostHold := o.hostHold
      overdueLock := o.overdueLock
      update := o.updateHold }

/-- The highest strength among the reasons, NONE for the empty set (R135). -/
def Reasons.strength (x : Reasons) : Strength :=
  if x.zoneStop || x.stopTicket || x.untrackedStop || decide (x.hostHold = some true) then .hard
  else if x.hostHold.isSome || x.overdueLock || x.update then .soft
  else .none

/-- The hold strength of a slot, derived afresh each time it is read (R135). -/
def Recs.strength (r : Recs) (i : Fin 24) : Strength := (r.reasons i).strength

/-- There is a reason other than OVERDUE_LOCK (R111). -/
def Reasons.otherThanLock (x : Reasons) : Bool :=
  x.zoneStop || x.stopTicket || x.untrackedStop || x.hostHold.isSome || x.update

/-- A reason other than OVERDUE_LOCK stands in `y` and not in `x` (R136). -/
def Reasons.gained (x y : Reasons) : Bool :=
  (y.zoneStop && !x.zoneStop) || (y.stopTicket && !x.stopTicket) || (y.untrackedStop && !x.untrackedStop)
    || (y.hostHold.isSome && !x.hostHold.isSome) || (y.update && !x.update)

/-- A reason stands in `x` and not in `y` (R136). -/
def Reasons.lost (x y : Reasons) : Bool := y.gained x || (x.overdueLock && !y.overdueLock)

/-- The standing severity of a slot: the highest of its live tickets' severities and its untracked severity (R135). -/
def Recs.standing (r : Recs) (i : Fin 24) : Option Severity :=
  let has (v : Severity) := (r.liveTicket i fun t => decide (t.severity = v)) || r.ovenIs i fun o => decide (o.untracked = some v)
  if has .stop then some .stop else if has .degraded then some .degraded else if has .notice then some .notice else none

/-- The standing severity is DEGRADED or STOP (R149, R158). -/
def Recs.standingBad (r : Recs) (i : Fin 24) : Bool :=
  match r.standing i with
  | some .stop => true
  | some .degraded => true
  | _ => false

/-! ## Readiness (R111) -/

/-- A ready oven (R111). -/
def Recs.isReady (r : Recs) (i : Fin 24) (o : Oven) : Bool :=
  decide (o.lifecycle = .inService) && !o.unreachable && decide (r.strength i = .none)
    && (decide (o.activity = .idle) || decide (o.activity = .cooking))
    && (match o.obligation with | some b => decide (b.state ≠ .granted) | none => true)
    && !r.activating i

/-- The ready count of a zone (R111). -/
def Recs.readyCount (r : Recs) (z : Fin 4) : Nat := r.countOvens fun i o => decide (o.zone = z) && r.isReady i o

/-! ## Answers -/

/-- What an owner answers a request: a status and a payload (R168, R170). -/
structure Reply where
  status  : Status
  payload : List Byte
  deriving DecidableEq, Repr

/-- OK with a payload; one that R170's 512 bytes cannot hold is the free value of log 12. -/
def Reply.ok (payload : List Byte) : Reply :=
  { status := .ok
    payload := if payload.length ≤ Config.payloadLimit then payload
      else (Config.overlongPayload payload).take Config.payloadLimit }

/-- A refusal, which carries no payload unless its rule gives one (R170). -/
def Reply.refuse (s : Status) : Reply := { status := s, payload := [] }

end Sys2Proof.Machine
end

