-- ==== Sys2Proof/Machine/Thu.lean ====
section
/-!
DEFINITION. The Ticket and Hold Unit's shared operations (chapter 8): reports and raises, numbering, eviction, clears
and resolutions. What follows from a change of hold reasons is in Holds.lean.
-/
namespace Sys2Proof.Machine

/-- The part-origin classes (R126). -/
def linkClass : Fin 32 := 28
def hygieneClass : Fin 32 := 29
def updateClass : Fin 32 := 30
def commissionClass : Fin 32 := 31

/-- The table places in ascending order. -/
def ticketPlaces : List (Fin 64) := List.finRange 64

/-- The live ticket of an oven slot and class (R125): the one whose state is not RESOLVED. -/
def Recs.liveAt (r : Recs) (i : Fin 24) (k : Fin 32) : Option (Fin 64) :=
  ticketPlaces.find? fun j => r.ticketIs j fun t =>
    decide (t.slot = i) && decide (t.cls = k) && decide (t.state ≠ .resolved)

/-- The ticket that holds a number. -/
def Recs.ticketOf (r : Recs) (number : Nat) : Option (Fin 64) :=
  ticketPlaces.find? fun j => r.ticketIs j fun t => decide (t.number = number)

/-- The number after `n`: 65535 is followed by 1 (R129). -/
def numberAfter (n : Nat) : Nat := if 65535 ≤ n then 1 else n + 1

/-- The first number from `n` upward that no present ticket holds, within `fuel` steps (R129). -/
def Recs.freeNumber (r : Recs) : Nat → Nat → Nat
  | 0, n => n
  | fuel + 1, n => if (r.ticketOf n).isSome then r.freeNumber fuel (numberAfter n) else n

/-- The lowest free table place (R128). -/
def Recs.freePlace (r : Recs) : Option (Fin 64) := ticketPlaces.find? fun j => (r.ticket j).isNone

/-- The key of eviction: resolved-at, then number (R128). A RESOLVED ticket restored without a resolved-at counts as
minute 0: DESIGN CHOICE (log 13). -/
def evictKey (t : Ticket) : Nat × Nat := ((t.resolvedAt.getD 0#32).toNat, t.number)

/-- `a` comes before `b` in the order of pairs. -/
def pairBefore (a b : Nat × Nat) : Bool := decide (a.1 < b.1) || (decide (a.1 = b.1) && decide (a.2 < b.2))

/-- The RESOLVED ticket to evict: lowest resolved-at, then lowest number (R128). -/
def Recs.evictPlace (r : Recs) : Option (Fin 64) :=
  ticketPlaces.foldl (fun best j =>
    match r.ticket j with
    | some t =>
      if t.state = .resolved then
        match best.bind r.ticket with
        | some u => if pairBefore (evictKey t) (evictKey u) then some j else best
        | none => some j
      else best
    | none => best) none

/-- A report merges into the live ticket at place `j` (R127). -/
def Recs.mergeReport (e : Env) (j : Fin 64) (t : Ticket) (code : BitVec 16) (sev : Severity) (r : Recs) : Recs :=
  let raised := decide (t.severity.code < sev.code)
  let r1 := r.changeTicket j fun t =>
    { t with occurrences := min 255 (t.occurrences + 1), lastAt := e.minute, code := code, cleared := false,
             repeated := t.repeated || decide (t.state = .opened), severity := if raised then sev else t.severity }
  let r2 := if t.state = .opened then r1.latch .ticketRepeat else r1
  if raised then r2.latchRoute t.route else r2

/-- A ticket opens at place `j` (R127). -/
def Recs.openTicket (e : Env) (j : Fin 64) (i : Fin 24) (k : Fin 32) (code : BitVec 16) (sev : Severity) (org : Origin)
    (r : Recs) : Recs :=
  let n := r.freeNumber 65 r.nextTicket
  let route := e.routes[k]
  let t : Ticket :=
    { number := n, slot := i, cls := k, code := code, severity := sev, state := .opened, origin := org, route := route,
      occurrences := 1, repeated := false, cleared := false, openedAt := e.minute, lastAt := e.minute, resolvedAt := none }
  (({ r with nextTicket := numberAfter n }.putTicket j (some t)).mark (.ticket j)).latchRoute route

/-- The higher of an untracked severity and a report's (R128). -/
def worse (a : Option Severity) (b : Severity) : Option Severity :=
  if severityCode a < b.code then some b else a

/-- The table is full of unresolved tickets: the report is kept on the oven (R128). -/
def Recs.untrack (i : Fin 24) (sev : Severity) (r : Recs) : Recs :=
  (r.changeOven i fun o => { o with untracked := worse o.untracked sev }).latch .ticketLocal

/-- A report for oven slot `i` and class `k`: it merges, opens a ticket, evicts for one, or is kept untracked
(R127, R128). A report for a free slot is dropped. -/
def Recs.report (e : Env) (i : Fin 24) (k : Fin 32) (code : BitVec 16) (sev : Severity) (org : Origin) (r : Recs) : Recs :=
  match r.oven i with
  | none => r
  | some _ =>
    match (r.liveAt i k).bind fun j => (r.ticket j).map fun t => (j, t) with
    | some (j, t) => r.mergeReport e j t code sev
    | none =>
      match r.freePlace with
      | some j => r.openTicket e j i k code sev org
      | none =>
        match r.evictPlace with
        | some j => ((r.putTicket j none).mark (.ticket j)).openTicket e j i k code sev org
        | none => r.untrack i sev

/-- A part-origin raise: code 0, origin PART (R126). -/
def Recs.raise (e : Env) (i : Fin 24) (k : Fin 32) (sev : Severity) (r : Recs) : Recs := r.report e i k 0#16 sev .part

/-- A ticket becomes RESOLVED at the current minute. -/
def Recs.resolveAt (e : Env) (j : Fin 64) (r : Recs) : Recs :=
  r.changeTicket j fun t => { t with state := .resolved, resolvedAt := some e.minute }

/-- The part resolves its live ticket of a class for an oven (R131). -/
def Recs.resolvePart (e : Env) (i : Fin 24) (k : Fin 32) (r : Recs) : Recs :=
  match r.liveAt i k with
  | some j => r.resolveAt e j
  | none => r

/-- FAULT_CLEAR: the live ticket is marked cleared by the oven, and resolved unless it is STOP (R130). -/
def Recs.faultClear (e : Env) (i : Fin 24) (k : Fin 32) (r : Recs) : Recs :=
  match r.liveAt i k with
  | none => r
  | some j =>
    let r1 := r.changeTicket j fun t => { t with cleared := true }
    if r.ticketIs j fun t => decide (t.severity = .stop) then r1 else r1.resolveAt e j

/-- A class code from an oven: above 27 it is 27 (R126, R190). -/
def ovenClass (n : Nat) : Fin 32 := Fin.ofNat 32 (clamp 0 27 n)

/-- Removing a ticket leaves a vacancy (R125). -/
def Recs.dropTicket (j : Fin 64) (r : Recs) : Recs :=
  match r.ticket j with
  | some _ => (r.putTicket j none).mark (.ticket j)
  | none => r

/-- Every ticket naming a slot is deleted (R22 step 4, R185 step 1). -/
def Recs.dropTickets (p : Ticket → Bool) (r : Recs) : Recs :=
  ticketPlaces.foldl (fun r j => if r.ticketIs j p then r.dropTicket j else r) r

end Sys2Proof.Machine
end

