-- ==== Sys2Proof/Machine/Cls.lean ====
section
/-!
DEFINITION. The Cleaning Scheduler's shared operations (chapter 7): eligibility, the arbiter, grants, lapses and
revocations, the overdue and lock tests, the limit check, and what a cleaning's start and end do to an obligation.
A change of hold reasons made here (OVERDUE_LOCK) is told to the neighbours by the caller (Holds.lean).
-/
namespace Sys2Proof.Machine

/-- Minute `t` is at or before the site minute, compared as plain unsigned numbers (R43). -/
def Env.reached (e : Env) (t : Minute) : Bool := decide (t.toNat ≤ e.minute.toNat)

/-- The slot's obligation. -/
def Recs.obligation (r : Recs) (i : Fin 24) : Option Obligation := (r.oven i).bind fun o => o.obligation

/-- The slot's obligation stands in a state. -/
def Recs.oblIs (r : Recs) (i : Fin 24) (s : OblState) : Bool :=
  match r.obligation i with
  | some b => decide (b.state = s)
  | none => false

/-- A change to the obligation's fields, which marks the OVEN index (R106); nothing without an obligation. -/
def Recs.changeObl (r : Recs) (i : Fin 24) (f : Obligation → Obligation) : Recs :=
  match r.obligation i with
  | some b => r.changeOven i fun o => { o with obligation := some (f b) }
  | none => r

/-- The obligation of slot `i` is eligible for a grant (R111). -/
def Recs.eligible (r : Recs) (i : Fin 24) : Bool :=
  r.ovenIs i fun o =>
    decide (o.lifecycle = .inService) && !o.unreachable && decide (o.activity = .idle)
      && !(r.reasons i).otherThanLock && !r.activating i
      && match o.obligation with | some b => decide (b.state = .due) | none => false

/-- The reserve test of a grant to slot `i` (R111). -/
def Recs.reserveOk (e : Env) (i : Fin 24) (r : Recs) : Bool :=
  match r.oven i with
  | none => false
  | some o =>
    !reservesApply e.mode
      || decide (e.reserves[o.zone] ≤ r.readyCount o.zone - (if r.isReady i o then 1 else 0))

/-- Grants outstanding plus ovens cleaning are at or above the current cleaning limit (R113). -/
def Recs.limitReached (e : Env) (r : Recs) : Bool := decide (e.profile.limit ≤ r.grantsOut + r.cleaningCount)

/-- The issue sequence number after `n`: it wraps from its upper bound to 1 (R114). -/
def sequenceAfter (n : Nat) : Nat := if Config.sequenceMax ≤ n then 1 else n + 1

/-- A grant to slot `i` (R114); in ROTATE mode P moves to the slot after it (R113). -/
def Recs.issueGrant (e : Env) (i : Fin 24) (r : Recs) : Recs :=
  match r.obligation i with
  | none => r
  | some b =>
    let r1 := r.changeOven i fun o =>
      { o with obligation := some { b with state := .granted
                                           grant := some { level := b.level, issuedAt := e.minute, sequence := r.sequence } }
               grantTelegram := .owed }
    { r1 with sequence := sequenceAfter r.sequence
              first := if e.clean.arbiter = .rotate then i + 1 else r.first }

/-- The slots from P upward, wrapping (R113). -/
def slotsFrom (p : Fin 24) : List (Fin 24) := (List.finRange 24).map fun d => p + d

/-- The classes of candidates in order: overdue before not overdue, then higher level before lower (R113). -/
def candidateClasses : List (Bool × Level) :=
  [(true, .intensive), (true, .heavy), (true, .medium), (true, .light),
   (false, .intensive), (false, .heavy), (false, .medium), (false, .light)]

/-- The eligible obligations in the arbiter's order, with P as it stands (R113). -/
def Recs.candidates (r : Recs) : List (Fin 24) :=
  candidateClasses.flatMap fun c => (slotsFrom r.first).filter fun i =>
    r.eligible i && match r.obligation i with
      | some b => decide (b.overdue = c.1) && decide (b.level = c.2)
      | none => false

/-- One candidate of the walk: the limit, then the reserve, then the grant (R113). Once the limit is reached every
later candidate finds it reached. -/
def Recs.offer (e : Env) (r : Recs) (i : Fin 24) : Recs :=
  if r.limitReached e then r else if r.reserveOk e i then r.issueGrant e i else r

/-- The arbiter run, in the LIVE phase only (R113). -/
def Recs.arbiter (e : Env) (r : Recs) : Recs := if e.live then r.candidates.foldl (Recs.offer e) r else r

/-- The overdue comparison finds the obligation of slot `i` overdue now (R109). -/
def Recs.overdueNow (e : Env) (i : Fin 24) (r : Recs) : Bool :=
  match r.obligation i with
  | none => false
  | some b => decide (b.state ≠ .running) && !b.overdue && e.reached b.deadline

/-- The overdue comparison on slot `i` (R109), without the arbiter run that follows it. -/
def Recs.overdueTest (e : Env) (i : Fin 24) (r : Recs) : Recs :=
  if r.overdueNow e i then
    (((r.changeObl i fun b => { b with overdue := true }).latch .cleanOverdue)).raise e i hygieneClass .notice
  else r

/-- The lock test on slot `i` (R110). -/
def Recs.lockTest (e : Env) (i : Fin 24) (r : Recs) : Recs :=
  match r.obligation i with
  | none => r
  | some b =>
    if e.clean.lockDelay ≠ 0 ∧ b.overdue = true ∧ b.locked = false ∧ b.state ≠ .running
        ∧ e.reached (b.deadline + minutes e.clean.lockDelay) then
      ((r.changeObl i fun b => { b with locked := true }).modOven i fun o => { o with overdueLock := true }).raise e i
        hygieneClass .degraded
    else r

/-- The overdue comparison and then the lock test, as a minute expiry and a return to DUE ask for them; in the RESTORE
phase neither is made (R109, R110, R124). -/
def Recs.dueTests (e : Env) (i : Fin 24) (r : Recs) : Recs := if e.live then (r.overdueTest e i).lockTest e i else r

/-- A grant ends and its obligation returns to DUE, with what that owes the oven (R115, R116); the tests of R109 and
R110 follow. Nothing when the obligation is not GRANTED. The arbiter run is the caller's. -/
def Recs.endGrant (e : Env) (i : Fin 24) (r : Recs) : Recs :=
  if r.oblIs i .granted then
    (((r.changeObl i fun b => { b with state := .due, grant := none }).modOven i fun o =>
      { o with revokeOwed := o.revokeOwed || decide (o.grantTelegram = .sent), grantTelegram := .none })).dueTests e i
  else r

/-- A revocation with the arbiter run that follows it (R116). -/
def Recs.revoke (e : Env) (i : Fin 24) (r : Recs) : Recs :=
  if r.oblIs i .granted then (r.endGrant e i).arbiter e else r

/-- The lapse test on slot `i`: the grant window has run out (R115). -/
def Recs.lapsed (e : Env) (i : Fin 24) (r : Recs) : Bool :=
  match r.obligation i with
  | some b =>
    decide (b.state = .granted) && match b.grant with
      | some g => e.reached (g.issuedAt + minutes e.clean.window)
      | none => false
  | none => false

/-- What a minute expiry does to one obligation: lapse, overdue comparison, lock test (R109, R110, R115). -/
def Recs.expireObl (e : Env) (r : Recs) (i : Fin 24) : Recs :=
  (if r.lapsed e i then r.endGrant e i else r).dueTests e i

/-- The CLS takes a minute expiry, in the LIVE phase: every obligation, then the arbiter (R43, R109, R113; log 7). -/
def Recs.clsExpiry (e : Env) (r : Recs) : Recs := if e.live then (slots.foldl (Recs.expireObl e) r).arbiter e else r

/-- How long ago a sequence number was given, counted back from the next one through the wrap (R112). -/
def sequenceAge (next n : Nat) : Nat := (next + Config.sequenceMax - n) % Config.sequenceMax

/-- The slot whose outstanding grant was issued last (R112). -/
def Recs.newestGrant (r : Recs) : Option (Fin 24) :=
  let age (i : Fin 24) : Nat := match (r.obligation i).bind fun b => b.grant with
    | some g => sequenceAge r.sequence g.sequence
    | none => 0
  (slots.filter fun i => r.oblIs i .granted).foldl (fun best i =>
    match best with
    | some j => if age i < age j then some i else best
    | none => some i) none

/-- Room left under the limit: the limit minus the ovens cleaning, or zero (R112). -/
def Recs.room (e : Env) (r : Recs) : Nat := e.profile.limit - r.cleaningCount

/-- While the grants exceed the room, the grant issued last is revoked (R112). -/
def Recs.trimGrants (e : Env) : Nat → Recs → Recs
  | 0, r => r
  | fuel + 1, r =>
    if r.room e < r.grantsOut then
      match r.newestGrant with
      | some i => (r.endGrant e i).trimGrants e fuel
      | none => r
    else r

/-- The limit check, in the LIVE phase (R112). The arbiter runs that follow its revocations find the limit reached. -/
def Recs.limitCheck (e : Env) (r : Recs) : Recs := if e.live then (r.trimGrants e 24).arbiter e else r

/-- A demanded level for slot `i` raises or upgrades its obligation (R108). -/
def Recs.demand (e : Env) (i : Fin 24) (level : Level) (r : Recs) : Recs :=
  let due := e.minute + minutes (e.clean.grace level)
  match r.oven i with
  | none => r
  | some o =>
    match o.obligation with
    | none =>
      ((r.changeOven i fun o =>
        { o with obligation := some { level := level, raisedAt := e.minute, deadline := due, state := .due
                                      overdue := false, locked := false, aborts := 0, grant := none } }).latch .cleanDue).arbiter e
    | some b =>
      if b.level.code < level.code then
        ((r.changeObl i fun b =>
          { b with level := level, deadline := if due.toNat < b.deadline.toNat then due else b.deadline }).latch .cleanDue).arbiter e
      else r

/-- A cleaning starts at slot `i`: CLEAN_START, or an activity of CLEANING learnt from a status block (R117, R120). -/
def Recs.cleanStart (e : Env) (i : Fin 24) (r : Recs) : Recs :=
  let check := !r.activityIs i .cleaning && !r.oblIs i .granted
  let r1 := r.modOven i fun o => { o with activity := .cleaning }
  let r2 := if r1.oblIs i .due || r1.oblIs i .granted then
      (r1.changeObl i fun b => { b with state := .running, grant := none, locked := false }).modOven i fun o =>
        { o with grantTelegram := .none, overdueLock := false }
    else r1
  let r3 := r2.arbiter e
  if check then r3.limitCheck e else r3

/-- An oven's activity leaves CLEANING without a CLEAN_END: a RUNNING obligation returns to DUE (R120). -/
def Recs.cleanLost (e : Env) (i : Fin 24) (r : Recs) : Recs :=
  (if r.oblIs i .running then (r.changeObl i fun b => { b with state := .due }).dueTests e i else r).arbiter e

/-- An ABORTED cleaning of a RUNNING obligation returns it to DUE and counts the abort; the third raises a HYGIENE
ticket at DEGRADED (R119). Any other obligation is left as it is. -/
def Recs.cleanAborted (e : Env) (i : Fin 24) (r : Recs) : Recs :=
  match r.obligation i with
  | none => r
  | some b =>
    if b.state = .running then
      let third := decide (3 ≤ b.aborts + 1)
      let r1 := r.changeObl i fun b => { b with state := .due, aborts := if third then 0 else b.aborts + 1 }
      let r2 := if third then r1.raise e i hygieneClass .degraded else r1
      (r2.dueTests e i).arbiter e
    else r

/-- The obligation is removed, in whatever state it stood; a grant whose telegram was SENT owes a revocation, and
OVERDUE_LOCK goes (R118, R122). -/
def Recs.removeObl (i : Fin 24) (r : Recs) : Recs :=
  match r.obligation i with
  | none => r
  | some _ => r.changeOven i fun o =>
      { o with obligation := none, overdueLock := false, grantTelegram := .none
               revokeOwed := o.revokeOwed || decide (o.grantTelegram = .sent) }

end Sys2Proof.Machine
end

