-- ==== Sys2Proof/Machine/Upe.lean ====
section
/-!
DEFINITION. The Update Engine's shared operations (chapter 9): admission, the wanted list, gap repair and
verification, wave ends and failures, the activation check, and the finishing test.
-/
namespace Sys2Proof.Machine

/-! ## Finishing (R163) -/

def Member.ended (m : Member) : Bool := decide (m.state = .done) || decide (m.state = .failed)

/-- A campaign state change latches CAMPAIGN and marks the CAMPAIGN index (R148). -/
def Recs.setCampaignState (r : Recs) (s : CampaignState) : Recs :=
  (r.changeCampaign fun c => { c with state := s }).latch .campaign

/-- The finishing test (R163). -/
def Recs.finishTest (r : Recs) : Recs :=
  match r.campaign with
  | none => r
  | some c =>
    if (c.state = .running ∨ c.state = .paused) ∧ c.members.all Member.ended then r.setCampaignState .finished
    else if c.state = .cancelling ∧ (c.members.all fun m => decide (m.state ≠ .activating)) = true then r.setCampaignState .cancelled
    else r

/-! ## Admission (R149) -/

/-- The outcome of the tests of R149 for one member. -/
inductive Verdict where
  | defer (why : DeferReason)
  | already
  | eligible
  deriving DecidableEq, Repr

/-- Steps 3 to 6 of R149: the first that the oven fails, if any. -/
def Recs.deferralOf (r : Recs) (i : Fin 24) : Option DeferReason :=
  if !r.lifecycleIs i .inService then some .notInService
  else if r.ovenIs i fun o => o.unreachable then some .unreachable
  else if r.strength i = .hard then some .held
  else if r.standingBad i then some .ticket
  else none

/-- The tests of R149 in their order. A member whose slot is free is NOT_IN_SERVICE: DESIGN CHOICE (log 20). -/
def Recs.verdict (r : Recs) (c : Campaign) (i : Fin 24) : Verdict :=
  match r.oven i with
  | none => .defer .notInService
  | some o =>
    if o.model ≠ c.model then .defer .model
    else if o.firmware = c.firmware then .already
    else match r.deferralOf i with
      | some d => .defer d
      | none => .eligible

/-- A telegram is owed anew: no exchange has carried it yet (R151). -/
def Member.owe (k : Owed) (m : Member) : Member := { m with owed := some k, onLine := false }

/-- A member joins the wave (R149 step 7, R144). The failure reason of an earlier attempt stays: DESIGN CHOICE (log 45). -/
def Member.join (m : Member) : Member :=
  { m with state := .queued, defer := none, wave := true, beginTurns := 0, repairs := 0, gaps := [], complete := false
           owed := some .begin, timer := none, onLine := false, waits := false }

/-- One member examined by admission, given how many have joined in this run (R149). -/
def Recs.examine (r : Recs) (c : Campaign) (joined : Nat) (m : Member) : Member :=
  if m.state = .queued ∨ m.state = .deferred then
    match r.verdict c m.slot with
    | .defer d => if m.state = .deferred ∧ m.defer = some d then m else { m with state := .deferred, defer := some d }
    | .already => { m with state := .done, defer := some .alreadyCurrent }
    | .eligible => if joined < c.waveSize then m.join else { m with state := .queued, defer := none }
  else m

/-- The member joined the wave in this run (R149). -/
def Member.joined (m n : Member) : Bool := n.wave && !m.wave

/-- The members examined in their order, ascending by slot (R149). -/
def Recs.examineAll (r : Recs) (c : Campaign) : Nat → List Member → List Member
  | _, [] => []
  | joined, m :: ms =>
    let m' := r.examine c joined m
    m' :: r.examineAll c (if m.joined m' then joined + 1 else joined) ms

/-- The persisted state or reason of a member changed (R149). -/
def Member.differs (m n : Member) : Bool := decide (m.state ≠ n.state) || decide (m.defer ≠ n.defer)

/-- Admission, without the gate on the phase: the campaign is RUNNING and the wave phase NONE; the phase becomes FORMING when
a member joined (R149). -/
def Recs.admissionCore (r : Recs) : Recs :=
  match r.campaign with
  | none => r
  | some c =>
    if c.state = .running ∧ c.phase = .none then
      let ms := r.examineAll c 0 c.members
      let pairs := c.members.zip ms
      let r1 := { r with campaign := some { c with members := ms, phase := if pairs.any fun p => p.1.joined p.2 then .forming else .none } }
      let r2 := if pairs.any fun p => p.1.differs p.2 then r1.mark .campaign else r1
      let r3 := if pairs.any fun p => decide (p.1.state ≠ .done) && decide (p.2.state = .done) then r2.latch .campaign else r2
      r3.finishTest
    else r

/-- Admission, in the LIVE phase: no restored record holds work for a block before GO_LIVE (R184; log 8). -/
def Recs.admission (e : Env) (r : Recs) : Recs := if e.live then r.admissionCore else r

/-! ## Waves (R150 to R157) -/

/-- A wave member that is QUEUED, TRANSFER, REPAIR or VERIFY (R157). -/
def Member.inWave (m : Member) : Bool :=
  (decide (m.state = .queued) && m.wave) || decide (m.state = .transfer) || decide (m.state = .repair)
    || decide (m.state = .verify)

/-- The wave ends: the phase becomes NONE and what belongs to the wave empties (R157). -/
def Campaign.endWave (c : Campaign) : Campaign :=
  { c with phase := .none, wanted := [], window := [], repaired := [], cursor := 0
           members := c.members.map fun m => { m with wave := false } }

/-- The wave-end test, followed by admission (R157). -/
def Recs.waveEnd (e : Env) (r : Recs) : Recs :=
  match r.campaign with
  | none => r
  | some c =>
    if c.phase ≠ .none ∧ !c.members.any Member.inWave then
      ({ r with campaign := some c.endWave } : Recs).admission e
    else r

/-- The slot's abort owed takes the campaign id. -/
def Recs.oweAbort (i : Fin 24) (r : Recs) : Recs :=
  match r.campaign with
  | some c => r.modOven i fun o => { o with abortOwed := some c.id }
  | none => r

/-- Indices that are wanted or in the window. -/
def Campaign.held (c : Campaign) : List Nat := c.wanted ++ c.window.map Chunk.index

/-- The lowest index that some REPAIR member lacks and that is neither wanted nor in the window (R152). -/
def Campaign.repairCandidate (c : Campaign) : Option Nat :=
  ((c.members.filter fun m => decide (m.state = .repair)).flatMap Member.gaps).foldl (fun best g =>
    if c.held.contains g then best
    else match best with
      | some b => some (min b g)
      | none => some g) none

/-- An index enters an ascending list at its place, once. -/
def insertIndex (g : Nat) : List Nat → List Nat
  | [] => [g]
  | x :: xs => if g < x then g :: x :: xs else if g = x then x :: xs else x :: insertIndex g xs

/-- One candidate added to the wanted list, if there is room and a candidate (R152). No single index is ever withdrawn from the
list, also when no REPAIR member lacks it any more: DESIGN CHOICE (log 50). -/
def Campaign.topUpOnce (c : Campaign) : Campaign :=
  if c.state = .running ∧ c.wanted.length + c.window.length < Config.windowCapacity then
    match c.phase with
    | .streaming =>
      if c.cursor < c.chunks then { c with wanted := insertIndex c.cursor c.wanted, cursor := c.cursor + 1 } else c
    | .repair =>
      match c.repairCandidate with
      | some g => { c with wanted := insertIndex g c.wanted }
      | none => c
    | _ => c
  else c

/-- The wanted list topped up: at most 4 additions (R152). -/
def Campaign.topUp (c : Campaign) : Campaign := c.topUpOnce.topUpOnce.topUpOnce.topUpOnce

/-- The wanted list topped up (R152). It is volatile and marks nothing. -/
def Recs.topUp (r : Recs) : Recs := r.modCampaign Campaign.topUp

/-- The verify test passes for a member (R155). -/
def Campaign.verifies (c : Campaign) (m : Member) : Bool :=
  decide (c.phase = .repair) && m.gaps.isEmpty && m.complete && (decide (m.state = .transfer) || decide (m.state = .repair))

/-- The verify test on members that meet `p`: a passing one becomes VERIFY and owes UPDATE_VERIFY (R155). -/
def Recs.verifyTest (p : Member → Bool) (r : Recs) : Recs :=
  match r.campaign with
  | none => r
  | some c =>
    if (c.members.any fun m => p m && c.verifies m) = true then
      r.changeCampaign fun c =>
        { c with
          members := c.members.map fun m =>
            if p m && c.verifies m then { m.owe .verify with state := .verify } else m }
    else r

/-- What passing the end-of-streaming test does to a member (R155). -/
def Member.streamEnded (m : Member) : Member :=
  if m.state = .transfer then
    if !m.gaps.isEmpty then { m.owe .finish with state := .repair }
    else if m.complete then { m.owe .verify with state := .verify }
    else m.owe .finish
  else m

/-- The end-of-streaming test (R155); a wave phase change and members entering REPAIR top up the wanted list (R152). -/
def Recs.endStreaming (r : Recs) : Recs :=
  match r.campaign with
  | none => r
  | some c =>
    if c.phase = .streaming ∧ c.cursor = c.chunks ∧ c.wanted.isEmpty ∧ c.window.isEmpty then
      let ms := c.members.map Member.streamEnded
      let r1 := { r with campaign := some { c with phase := .repair, members := ms } }
      (if (c.members.zip ms).any fun p => p.1.differs p.2 then r1.mark .campaign else r1).topUp
    else r

/-- A wave failure of slot `i` (R156). -/
def Recs.waveFailure (e : Env) (i : Fin 24) (why : FailReason) (r : Recs) : Recs :=
  match r.member i with
  | none => r
  | some m =>
    let n := m.attempts + 1
    let final := decide (Config.attemptLimit ≤ n)
    let r1 := r.modMember i fun m =>
      { m with attempts := min Config.attemptLimit n, wave := false, owed := none, fail := some why
               state := if final then .failed else .queued }
    let r2 := r1.oweAbort i
    let r3 := if final then (r2.latch .campaign).raise e i updateClass .degraded else r2
    ((r3.mark .campaign).waveEnd e).finishTest

/-- A wave member leaves the wave without an attempt being counted: DEFERRED, an abort owed (R150, R157). -/
def Recs.leaveWave (e : Env) (i : Fin 24) (why : DeferReason) (r : Recs) : Recs :=
  match r.member i with
  | none => r
  | some m =>
    if m.inWave then
      (((r.changeMember i fun m => { m with state := .deferred, defer := some why, wave := false, owed := none }).oweAbort
        i).waveEnd e).finishTest
    else r

/-- The index has been broadcast (R153). -/
def Recs.chunkSent (index : Nat) (r : Recs) : Recs :=
  let r1 := r.modCampaign fun c =>
    { c with members := c.members.map fun m => { m with gaps := m.gaps.filter fun g => decide (g ≠ index) }
             repaired := if c.phase = .repair then insertIndex index c.repaired else c.repaired }
  (r1.topUp.verifyTest fun m => decide (m.state = .repair)).endStreaming

/-! ## Events (R150, R154 to R156) -/

/-- UPDATE_READY (R150). Taken with OK while UPDATE_BEGIN is still owed, it withdraws that telegram: DESIGN CHOICE (log 40). -/
def Recs.updateReady (e : Env) (i : Fin 24) (id : Nat) (ok : Bool) (r : Recs) : Recs :=
  match r.campaign, r.member i with
  | some c, some m =>
    if c.id = id ∧ m.state = .queued ∧ m.wave = true then
      if ok then
        let r1 := r.changeMember i fun m =>
          { (if c.phase = .repair then m.owe .finish else { m with owed := none }) with state := .transfer }
        if c.phase = .forming then (r1.modCampaign fun c => { c with phase := .streaming, cursor := 0 }).topUp else r1
      else r.waveFailure e i .refused
    else r
  | _, _ => r

/-- How many of the indices are in the repair set (R154 step 1). -/
def Campaign.missedAgain (c : Campaign) (indices : List Nat) : Nat := indices.countP fun g => c.repaired.contains g

/-- The gap list with indices merged in (R154 step 3). -/
def mergeGaps (gaps indices : List Nat) : List Nat := indices.foldl (fun gs g => insertIndex g gs) gaps

/-- UPDATE_GAP (R154). A report with no index below N merges nothing and takes steps 4 and 5 as any other: DEDUCED (log 41). -/
def Recs.updateGap (e : Env) (i : Fin 24) (id : Nat) (indices : List Nat) (r : Recs) : Recs :=
  match r.campaign, r.member i with
  | some c, some m =>
    if c.id = id ∧ (m.state = .transfer ∨ m.state = .repair) then
      let taken := indices.filter fun g => decide (g < c.chunks)
      let repairs := m.repairs + c.missedAgain taken
      let r1 := r.modMember i fun m => { m with repairs := min Config.repairLimit repairs }
      if Config.repairLimit < repairs then r1.waveFailure e i .repairLimit
      else
        let merged := mergeGaps m.gaps taken
        if Config.gapCapacity < merged.length then r1.waveFailure e i .gaps
        else
          let r2 := r1.modMember i fun m => { m with gaps := merged, complete := false }
          (if m.state = .transfer ∧ c.phase = .repair then r2.changeMember i fun m => { m with state := .repair } else r2).topUp
    else r
  | _, _ => r

/-- UPDATE_COMPLETE (R155). -/
def Recs.updateComplete (i : Fin 24) (id : Nat) (r : Recs) : Recs :=
  match r.campaign, r.member i with
  | some c, some m =>
    if c.id = id ∧ (m.state = .transfer ∨ m.state = .repair) then
      (r.modMember i fun m => { m with complete := true }).verifyTest fun m => decide (m.slot = i)
    else r
  | _, _ => r

/-! ## Activation (R158, R159) -/

/-- Another member whose oven is in the zone is ACTIVATING. -/
def Recs.zoneActivating (r : Recs) (i : Fin 24) (z : Fin 4) : Bool :=
  slots.any fun j => decide (j ≠ i) && r.activating j && r.ovenIs j fun o => decide (o.zone = z)

/-- The conditions of R158 on the member of slot `i`. The count after the activation is the ready count less one, stopping at 0,
for an oven with a GRANTED obligation too, which is not ready (R46, R111): DESIGN CHOICE (log 25). -/
def Recs.mayActivate (e : Env) (i : Fin 24) (r : Recs) : Bool :=
  match r.campaign, r.member i, r.oven i with
  | some c, some m, some o =>
    decide (c.state = .running) && decide (m.state = .ready) && !m.waits && e.profile.activate
      && decide (o.lifecycle = .inService) && !o.unreachable && decide (o.activity = .idle)
      && decide (r.strength i = .none) && !r.standingBad i && !r.zoneActivating i o.zone
      && (!reservesApply e.mode || decide (e.reserves[o.zone] ≤ r.readyCount o.zone - 1))
  | _, _, _ => false

/-- An activation (R159): the UPDATE reason makes the CLS revoke the oven's grant (R116). -/
def Recs.activate (e : Env) (i : Fin 24) (r : Recs) : Recs :=
  let r1 := r.changeMember i fun m =>
    { m.owe .activate with state := .activating, timer := some Config.activationTimeout }
  (r1.modOven i fun o => { o with updateHold := true }).revoke e i

/-- One READY member examined by the activation check. -/
def Recs.activateIf (e : Env) (r : Recs) (i : Fin 24) : Recs := if r.mayActivate e i then r.activate e i else r

/-- The READY members of the listed slots examined in the order listed, in the LIVE phase (R158). An activation changes an oven's
strength, so admission follows (R149, R136; log 8). -/
def Recs.activateAmong (e : Env) (l : List (Fin 24)) (r : Recs) : Recs :=
  if e.live then
    let r1 := l.foldl (Recs.activateIf e) r
    if slots.any fun i => r1.activating i && !r.activating i then r1.admission e else r1
  else r

/-- The activation check (R158): over the READY members of every slot. -/
def Recs.activationCheck (e : Env) (r : Recs) : Recs := r.activateAmong e slots

/-- The slots in ascending order whose record is in a zone. -/
def Recs.slotsIn (r : Recs) (z : Fin 4) : List (Fin 24) := slots.filter fun i => r.ovenIs i fun o => decide (o.zone = z)

/-- The activation check for one zone (R163): over the READY members whose oven is in it. -/
def Recs.activationCheckIn (e : Env) (z : Fin 4) (r : Recs) : Recs := r.activateAmong e (r.slotsIn z)

/-- What the UPE checks when a strength changes: admission and activation (R136). -/
def Recs.upeCheck (e : Env) (r : Recs) : Recs := (r.admission e).activationCheck e

/-- A member ceases to be ACTIVATING: nothing owed, no timer, no UPDATE reason (R160 to R162). -/
def Recs.endActivating (i : Fin 24) (f : Member → Member) (r : Recs) : Recs :=
  (r.changeMember i fun m => { f m with owed := none, timer := none, onLine := false }).modOven i fun o =>
    { o with updateHold := false }

/-- A member leaves ACTIVATING and the arbiter runs (R113). -/
def Recs.leaveActivating (e : Env) (i : Fin 24) (f : Member → Member) (r : Recs) : Recs := (r.endActivating i f).arbiter e

/-- The return of an ACTIVATING member to READY (R160): a CANCELLING campaign without another is CANCELLED (R163), and the
activation check runs, over the READY members of every zone: DESIGN CHOICE (log 27). What a strength changed by the loss of UPDATE
brings, admission among it, is told with the change (R136, Recs.tellHolds); a strength that stays brings none (R149). -/
def Recs.backToReady (e : Env) (i : Fin 24) (r : Recs) : Recs :=
  if r.activating i then ((r.leaveActivating e i fun m => { m with state := .ready, waits := true }).finishTest).activationCheck e else r

/-- VERIFY_RESULT: 0 OK, 2 REFUSED, other BAD (R156, R160). -/
def Recs.verifyResult (e : Env) (i : Fin 24) (id result : Nat) (r : Recs) : Recs :=
  match r.campaign, r.member i with
  | some c, some m =>
    if c.id = id then
      if m.state = .verify then
        if result = 0 then
          (((r.changeMember i fun m => { m with state := .ready, owed := none, waits := false }).activationCheck e).waveEnd e)
        else if result = 2 then r
        else r.waveFailure e i .crc
      else if m.state = .activating ∧ result = 2 then r.backToReady e i
      else r
    else r
  | _, _ => r

/-- The member of a retired oven is removed, whatever its state (R163). -/
def Recs.removeMember (i : Fin 24) (r : Recs) : Recs :=
  match r.member i with
  | some _ => r.changeCampaign fun c => { c with members := c.members.filter fun m => decide (m.slot ≠ i) }
  | none => r

/-- The tests that follow a retirement that proceeds: wave end, the activation check for the retired oven's zone, finishing
(R163). The removal of an ACTIVATING member brings no check of the other zones: DESIGN CHOICE (log 27). -/
def Recs.afterRemoval (e : Env) (z : Fin 4) (r : Recs) : Recs := ((r.waveEnd e).activationCheckIn e z).finishTest

end Sys2Proof.Machine
end

