-- ==== Sys2Proof/Machine/Holds.lean ====
section
/-!
DEFINITION. What the THU tells its neighbours when hold reasons change (R136): a gained reason other than OVERDUE_LOCK
revokes the oven's grant, a lost reason runs the arbiter, a changed strength runs the UPE's checks.
-/
namespace Sys2Proof.Machine

/-- The slot holds a record before and after: the change concerns an oven that is still there. The reasons of a record whose slot
is freed go with it and nobody is told: DESIGN CHOICE (log 44). -/
def Recs.staysIn (before after : Recs) (i : Fin 24) : Bool := (before.oven i).isSome && (after.oven i).isSome

/-- The neighbours are told of the changes of reasons between two moments, in the order of R136: each gain to the CLS,
then the arbiter for the losses, then the UPE for the changed strengths (log 9). -/
def Recs.tellHolds (e : Env) (before after : Recs) : Recs :=
  let r1 := slots.foldl (fun r i => if (before.reasons i).gained (after.reasons i) then r.revoke e i else r) after
  let r2 := if slots.any fun i => before.staysIn after i && (before.reasons i).lost (after.reasons i)
    then r1.arbiter e else r1
  if slots.any fun i => before.staysIn r2 i && decide (before.strength i ≠ r2.strength i) then r2.upeCheck e else r2

/-- A change `f` of the records with what its changes of hold reasons bring (R136). In the RESTORE phase that is the revocation
of a gain alone (R116, R139): the arbiter, admission and the activation check wait for the LIVE phase (R113; log 8). -/
def Recs.withHolds (e : Env) (f : Recs → Recs) (r : Recs) : Recs := Recs.tellHolds e r (f r)

end Sys2Proof.Machine
end

