-- ==== Sys2Proof/Machine/Rlb.lean ====
section
/-!
DEFINITION. The Recipe Library's lookups, release test and removal (chapter 4).
-/
namespace Sys2Proof.Machine

/-- The library slots in ascending order. -/
def libraryPlaces : List (Fin 128) := List.finRange 128

/-- The record at a library slot, if it meets `p`. -/
def Recs.recipeIs (r : Recs) (k : Fin 128) (p : Recipe → Bool) : Bool :=
  match r.recipe k with
  | some x => p x
  | none => false

/-- The library slot of the record with a pair (id, version), in any state (R69). -/
def Recs.findRecipe (r : Recs) (id version : Nat) : Option (Fin 128) :=
  libraryPlaces.find? fun k => r.recipeIs k fun x => decide (x.id = id) && decide (x.version = version)

/-- The record with a pair (id, version), in any state (R69). -/
def Recs.recordOf (r : Recs) (id version : Nat) : Option Recipe := (r.findRecipe id version).bind r.recipe

/-- The library slot of an id's record in a state: PUBLISHED (R69) or DRAFT (R58). -/
def Recs.findState (r : Recs) (id : Nat) (s : RecipeState) : Option (Fin 128) :=
  libraryPlaces.find? fun k => r.recipeIs k fun x => decide (x.id = id) && decide (x.state = s)

/-- The lowest free library slot (R61). -/
def Recs.freeLibrary (r : Recs) : Option (Fin 128) := libraryPlaces.find? fun k => (r.recipe k).isNone

/-- How many library slots are occupied. -/
def Recs.libraryCount (r : Recs) : Nat := libraryPlaces.countP fun k => (r.recipe k).isSome

/-- The eligible records of a menu group: PUBLISHED, with the group in the mask (R69). -/
def Recs.eligibleRecipes (r : Recs) (group : Fin 8) : List Recipe :=
  (libraryPlaces.filterMap r.recipe).filter fun x => decide (x.state = .published) && bitOf x.mask group.val

/-- A change to persisted fields of a record, which marks its RECIPE index (R55). -/
def Recs.changeRecipe (r : Recs) (k : Fin 128) (f : Recipe → Recipe) : Recs :=
  match r.recipe k with
  | some x => (r.putRecipe k (some (f x))).mark (.recipe k)
  | none => r

/-- Removing a record frees its slot and its pool entries and leaves a vacancy (R55, R57). -/
def Recs.dropRecipe (r : Recs) (k : Fin 128) : Recs := (r.putRecipe k none).mark (.recipe k)

/-- The release test on a library slot: a WITHDRAWN record that no oven carries and no counted cook names is
released, and RECIPE_RELEASED latches (R68). -/
def Recs.releaseAt (r : Recs) (k : Fin 128) : Recs :=
  if r.recipeIs k fun x => decide (x.state = .withdrawn) && decide (r.carrierCount x.id x.version = 0)
      && decide (r.cookCount x.id x.version = 0)
  then (r.dropRecipe k).latch .recipeReleased
  else r

/-- The release test on the record of a pair, made in the LIVE phase (R68). -/
def Recs.releaseTest (e : Env) (id version : Nat) (r : Recs) : Recs :=
  if e.live then
    match r.findRecipe id version with
    | some k => r.releaseAt k
    | none => r
  else r

/-- The release test for each pair that has lost a carrier (R66). -/
def Recs.releaseTests (e : Env) (pairs : List (Nat × Nat)) (r : Recs) : Recs :=
  pairs.foldl (fun r p => r.releaseTest e p.1 p.2) r

end Sys2Proof.Machine
end

