-- ==== Sys2Proof/Machine/Rde.lean ====
section
/-!
DEFINITION. The Recipe Distribution Engine (chapter 5): targets, carried lists, work selection, acknowledgements,
clearing and digests. The FLT's loading test (R8) that follows a change is called by its users (Flt.lean).
-/
namespace Sys2Proof.Machine

/-! ## Target (R74, R75) -/

/-- The carried limit K = min(40, c), not defined without a capability (R73). -/
def Oven.carriedLimit (o : Oven) : Option Nat := o.capability.map fun c => min Config.carriedCap c.capacity

/-- Target order: rank, then recipe id, lowest first (R74). -/
def targetBefore (x y : Recipe) : Bool := pairLt (x.rank, x.id) (y.rank, y.id)
where
  pairLt (a b : Nat × Nat) : Bool := decide (a.1 < b.1) || (decide (a.1 = b.1) && decide (a.2 < b.2))

/-- A record enters an ordered list at its place. -/
def insertRecipe (x : Recipe) : List Recipe → List Recipe
  | [] => [x]
  | y :: ys => if targetBefore x y then x :: y :: ys else y :: insertRecipe x ys

/-- Records in target order. -/
def sortRecipes (xs : List Recipe) : List Recipe := xs.foldr insertRecipe []

/-- A target with its unfit and overflow counts. -/
structure Target where
  pairs    : List (Nat × Nat)
  unfit    : Nat
  overflow : Nat
  deriving DecidableEq, Repr

/-- The target of an oven (R74); empty with counts 0 while the capability is absent (R73). -/
def Recs.targetOf (r : Recs) (o : Oven) : Target :=
  match o.capability with
  | none => { pairs := [], unfit := 0, overflow := 0 }
  | some c =>
    let all := r.eligibleRecipes o.group
    let fit := all.filter fun x => decide (x.stages.length ≤ c.maxStages)
    let kept := sortRecipes (fit.filter fun x => !o.refused.contains (x.id, x.version))
    let k := min Config.carriedCap c.capacity
    { pairs := (kept.take k).map fun x => (x.id, x.version)
      unfit := all.length - fit.length
      overflow := kept.length - k }

/-- The wanted version of an id in a target (R74). -/
def wantedIn (t : List (Nat × Nat)) (id : Nat) : Option Nat := (t.find? fun p => decide (p.1 = id)).map Prod.snd

/-- The state that held and wanted give an entry with no work in flight (R76). -/
def entryState (held wanted : Option Nat) : EntryState := if held.isSome ∧ held = wanted then .current else .stale

/-- Work is in flight for an id. -/
def Oven.flying (o : Oven) (id : Nat) : Bool :=
  match o.inFlight with
  | some f => decide (f.id = id)
  | none => false

/-- An entry takes its wanted version, and its state unless work is in flight for it (R75). -/
def Oven.rewant (o : Oven) (t : List (Nat × Nat)) (c : Entry) : Entry :=
  let w := wantedIn t c.id
  { c with wanted := w, state := if o.flying c.id then c.state else some (entryState c.held w) }

/-- The target of a slot is recomputed; SYNC latches when a count has risen (R75). Derived and volatile: no mark. -/
def Recs.recompute (i : Fin 24) (r : Recs) : Recs :=
  match r.oven i with
  | none => r
  | some o =>
    let t := r.targetOf o
    let r1 := r.putOven i (some { o with
      target := t.pairs, unfit := t.unfit, overflow := t.overflow, carried := o.carried.map (o.rewant t.pairs) })
    if o.unfit < t.unfit ∨ o.overflow < t.overflow then r1.latch .sync else r1

/-! ## The carried list -/

/-- The pairs (id, held version) of a list (R76). -/
def heldPairs (l : List Entry) : List (Nat × Nat) := l.filterMap fun c => c.held.map fun v => (c.id, v)

/-- An entry enters the list at its id's place (R76). -/
def insertEntry (x : Entry) : List Entry → List Entry
  | [] => [x]
  | c :: cs => if x.id < c.id then x :: c :: cs else c :: insertEntry x cs

/-- The entry of an id. -/
def Oven.entry (o : Oven) (id : Nat) : Option Entry := o.carried.find? fun c => decide (c.id = id)

/-- The entry of an id changed. -/
def Oven.modEntry (o : Oven) (id : Nat) (f : Entry → Entry) : Oven :=
  { o with carried := o.carried.map fun c => if c.id = id then f c else c }

/-- Every entry removed with any work in flight: the OVEN index is marked if an entry had a held version, and each
lost carrier brings the release test (R84). -/
def Recs.emptyCarried (e : Env) (i : Fin 24) (r : Recs) : Recs :=
  match r.oven i with
  | none => r
  | some o =>
    let lost := heldPairs o.carried
    let r1 := r.putOven i (some { o with carried := [], inFlight := none })
    (if lost.isEmpty then r1 else r1.mark (.oven i)).releaseTests e lost

/-- A capability that makes K smaller than the list empties the list and sets clear-pending (R84). -/
def Recs.shrinkCheck (e : Env) (i : Fin 24) (r : Recs) : Recs :=
  match r.oven i with
  | none => r
  | some o =>
    match o.carriedLimit with
    | some k =>
      if k < o.carried.length then (r.emptyCarried e i).modOven i fun o => { o with clearPending := true } else r
    | none => r

/-- A store started afresh: the carried list and the refused list are emptied and work in flight ends; clear-pending
is set or cleared (R86). -/
def Recs.storeAfresh (e : Env) (i : Fin 24) (clear : Bool) (r : Recs) : Recs :=
  (r.emptyCarried e i).modOven i fun o => { o with refused := [], clearPending := clear, inFlight := none }

/-! ## Work (R77 to R80) -/

/-- Item 2 of R78: STALE entries whose id is not in the target, lowest id first. -/
def Oven.drops (o : Oven) : List Work :=
  (o.carried.filter fun c => decide (c.state = some .stale) && (wantedIn o.target c.id).isNone).map fun c => .drop c.id

/-- Item 3 of R78: STALE entries whose id is in the target, in target order. -/
def Oven.replacements (o : Oven) : List Work :=
  (o.target.filter fun p => match o.entry p.1 with
    | some c => decide (c.state = some .stale)
    | none => false).map fun p => .load p.1 p.2

/-- Item 4 of R78: ids of the target with no carried entry, in target order, while there is room. -/
def Oven.additions (o : Oven) : List Work :=
  match o.carriedLimit with
  | some k =>
    if o.carried.length < k then
      (o.target.filter fun p => (o.entry p.1).isNone).map fun p => .load p.1 p.2
    else []
  | none => []

/-- The oven has work wanted (R78). -/
def Oven.workWanted (o : Oven) : Bool := !(o.drops ++ o.replacements ++ o.additions).isEmpty

/-- A drop or load has been delivered and awaits its acknowledgement (R77). -/
def Oven.awaitsAck (o : Oven) : Bool :=
  match o.inFlight with
  | some f => f.delivered
  | none => false

/-- R77's conditions on the oven, whatever the work, less the one on work awaiting its acknowledgement. -/
def Oven.takesWork (o : Oven) (e : Env) : Bool :=
  (decide (o.lifecycle = .loading) || decide (o.lifecycle = .inService)) && !o.unreachable
    && decide (o.activity ≠ .updating) && (decide (o.activity ≠ .cooking) || e.profile.push)

/-- The id of the cook context, when the oven is cooking (R77). A context with recipe id 0 names no entry. -/
def Oven.cookedId (o : Oven) : Option Nat := if o.activity = .cooking then o.cook.map CookCtx.recipe else none

/-- Work of an id is passed over while the oven cooks that id (R77). -/
def Oven.passedOver (o : Oven) : Work → Bool
  | .drop id => decide (o.cookedId = some id)
  | .load id _ => decide (o.cookedId = some id)
  | _ => false

/-- What the RDE offers for a slot (R77, R78): CLEAR_SET alone while clear-pending is set and the oven does not cook,
else the first drop, replacement or addition that is not passed over. -/
def Oven.rdeWork (o : Oven) (e : Env) : Option Work :=
  if !o.takesWork e then none
  else if o.clearPending then (if o.activity = .cooking then none else some .clearSet)
  else if o.awaitsAck then none
  else (o.drops ++ o.replacements ++ o.additions).find? fun w => !o.passedOver w

/-- A stage adapted to a capability (R79). -/
def Stage.adapt (c : Capability) (t : Stage) : Stage :=
  let wet := decide (t.mode = .steam) || decide (t.mode = .combi)
  let t1 := { t with setpoint := clamp c.tempMin c.tempMax t.setpoint }
  let t2 := if !c.steam && wet then { t1 with mode := .convection, humidity := 0 } else t1
  match t2.stop with
  | .probe _ cap => if c.probe then t2 else { t2 with stop := .time cap }
  | .time _ => t2

/-- The stages of a load for an oven: as stored while the capability is absent, which R74 excludes. -/
def Oven.adapted (o : Oven) (x : Recipe) : List Stage :=
  match o.capability with
  | some c => x.stages.map (Stage.adapt c)
  | none => x.stages

/-- The payload of RECIPE_LOAD (R79, R189). -/
def Oven.loadPayload (o : Oven) (x : Recipe) : List Byte :=
  u16 x.id ++ u8 x.version ++ nameBytes x.name ++ ((o.adapted x).map Stage.bytes).flatten

/-- The RDE records the work in flight when its offer is selected (R80). -/
def Oven.beginWork (o : Oven) (clamped : Bool) : Work → Oven
  | .drop id =>
    let o1 := o.modEntry id fun c => { c with state := some .dropping }
    { o1 with inFlight := some { id := id, load := none, delivered := false, clamped := false } }
  | .load id v =>
    let added : Entry := { id := id, held := none, wanted := some v, state := some .loading, clamped := false }
    let o1 := if (o.entry id).isSome then o.modEntry id fun c => { c with state := some .loading }
      else { o with carried := insertEntry added o.carried }
    { o1 with inFlight := some { id := id, load := some v, delivered := false, clamped := clamped } }
  | _ => o

/-- Work in flight ends without an acknowledgement: an addition's entry goes, the entry of a drop or of a replacement
returns to STALE (R80, R82, R89; log 14). -/
def Oven.abandonWork (o : Oven) : Oven :=
  match o.inFlight with
  | none => o
  | some f =>
    { o with
      inFlight := none
      carried := (o.carried.filter fun c => !(decide (c.id = f.id) && c.held.isNone)).map fun c =>
        if c.id = f.id then { c with state := some .stale } else c }

/-- The work in flight takes its delivered mark (R80). -/
def Oven.deliverWork (o : Oven) : Oven := { o with inFlight := o.inFlight.map fun f => { f with delivered := true } }

/-- A delivered CLEAR_SET: every entry goes and clear-pending clears (R84). -/
def Recs.clearDelivered (e : Env) (i : Fin 24) (r : Recs) : Recs :=
  (r.emptyCarried e i).modOven i fun o => { o with clearPending := false }

/-! ## Acknowledgements (R81 to R83) -/

/-- An entry's held version takes a version; the old pair loses its carrier (R81). With no clamped mark given, as in an
acknowledgement of no work in flight (R83), the entry keeps its clamped flag: DESIGN CHOICE (log 38). -/
def Recs.setHeld (e : Env) (i : Fin 24) (id v : Nat) (clamped : Option Bool) (r : Recs) : Recs :=
  match r.oven i with
  | none => r
  | some o =>
    let old := (o.entry id).bind Entry.held
    let r1 := r.changeOven i fun o => o.modEntry id fun c =>
      { c with held := some v, state := some (entryState (some v) c.wanted), clamped := clamped.getD c.clamped }
    match old with
    | some w => if w = v then r1 else r1.releaseTest e id w
    | none => r1

/-- An entry with a held version is removed and its pair loses a carrier (R83). -/
def Recs.removeEntry (e : Env) (i : Fin 24) (id : Nat) (r : Recs) : Recs :=
  match r.oven i with
  | none => r
  | some o =>
    let r1 := r.changeOven i fun o => { o with carried := o.carried.filter fun c => decide (c.id ≠ id) }
    match (o.entry id).bind Entry.held with
    | some w => r1.releaseTest e id w
    | none => r1

/-- A pair enters the refused list at its end; a full list loses its oldest; a pair already there keeps its place
(R82 step 1). -/
def refuse (l : List (Nat × Nat)) (p : Nat × Nat) : List (Nat × Nat) :=
  if l.contains p then l
  else if Config.refusedCapacity ≤ l.length then l.drop 1 ++ [p] else l ++ [p]

/-- The work in flight is a delivered load of an id at a version. -/
def Oven.delivered (o : Oven) (id : Nat) (load : Option Nat) : Bool :=
  match o.inFlight with
  | some f => f.delivered && decide (f.id = id) && decide (f.load = load)
  | none => false

/-- The clamped mark of the work in flight. -/
def Oven.flightClamped (o : Oven) : Bool :=
  match o.inFlight with
  | some f => f.clamped
  | none => false

/-- RECIPE_ACK (R81 to R83). Version 0 acknowledges a drop, whatever its result. -/
def Recs.recipeAck (e : Env) (i : Fin 24) (id v : Nat) (ok : Bool) (r : Recs) : Recs :=
  match r.oven i with
  | none => r
  | some o =>
    let land := fun r : Recs => r.modOven i fun o => { o with inFlight := none }
    if v = 0 then
      if o.delivered id none then (land r).removeEntry e i id
      else if (o.entry id).isSome ∧ !o.flying id then r.removeEntry e i id
      else r
    else if ok then
      if o.delivered id (some v) then (land r).setHeld e i id v (some o.flightClamped)
      else if (o.entry id).isSome ∧ !o.flying id then
        if (o.entry id).bind Entry.held = some v then r else r.setHeld e i id v none
      else r
    else
      let r1 := r.modOven i fun o => { o with refused := refuse o.refused (id, v) }
      let r2 := if o.delivered id (some v) then r1.modOven i Oven.abandonWork else r1
      (r2.recompute i).latch .sync

/-! ## Digest (R85) -/

/-- The digest of a carried list: CRC-32 over id (2 bytes) and held version of each held entry, in id order (R85). -/
def digest (l : List Entry) : BitVec 32 := crc32 ((heldPairs l).map fun p => u16 p.1 ++ u8 p.2).flatten

/-- The reported digest is compared with the carried list, unless clear-pending is already set (R85). -/
def Recs.compareDigest (i : Fin 24) (reported : BitVec 32) (r : Recs) : Recs :=
  match r.oven i with
  | none => r
  | some o =>
    if o.clearPending then r
    else
      let o1 := o.abandonWork
      if digest o1.carried = reported then r.putOven i (some o1)
      else (r.putOven i (some { o1 with clearPending := true })).latch .sync

/-- The version of an entry that the RDE's record of work gives a load payload for; none when the library no longer
holds the record. -/
def Recs.loadOf (r : Recs) (i : Fin 24) (id v : Nat) : Option (List Byte × Bool) :=
  match r.oven i, r.recordOf id v with
  | some o, some x => some (o.loadPayload x, decide (o.adapted x ≠ x.stages))
  | _, _ => none

end Sys2Proof.Machine
end

