-- ==== Sys2Proof/Machine/Sau.lean ====
section
/-!
DEFINITION. Soil Accounting (chapter 6): the cook report, the evaluation, credits and waives.
-/
namespace Sys2Proof.Machine

/-- A stage record of a cook report (12.2): the mode code, setpoint and seconds as sent. -/
structure CookStage where
  mode     : Nat
  setpoint : Nat
  seconds  : Nat
  deriving DecidableEq, Repr

/-- A cook report (R18). The outcome is recorded and changes nothing (R94). -/
structure CookReport where
  recipe  : Nat
  version : Nat
  done    : Bool
  stages  : List CookStage
  deriving DecidableEq, Repr

/-- A stage's duration as the computation takes it (R94). -/
def CookStage.taken (c : CookStage) : Nat := min 14400 c.seconds

/-- The temperature band of a setpoint, clamped first (R94, R96). -/
def band (setpoint : Nat) : Nat :=
  let t := clamp 30 300 setpoint
  if t < 120 then 1 else if t < 180 then 2 else if t < 230 then 3 else 4

/-- The mode weight of a mode code; one that names no mode counts as COMBI (R94, R96). -/
def SoilSettings.weight (s : SoilSettings) (code : Nat) : Nat :=
  match cookModeOfCode code with
  | some .convection => s.wConvection
  | some .steam => s.wSteam
  | some .hold => s.wHold
  | some .combi => s.wCombi
  | none => s.wCombi

/-- The soil factor of a report: manual, the record of its pair, the id's PUBLISHED record, or the default (R95). -/
def Recs.soilFactor (e : Env) (recipe version : Nat) (r : Recs) : Nat :=
  if recipe = 0 then e.soil.manualFactor
  else match r.recordOf recipe version with
    | some x => x.factor
    | none =>
      match (r.findState recipe .published).bind r.recipe with
      | some x => x.factor
      | none => e.soil.defaultFactor

/-- One stage adds to the score and leaves its residue (R97). -/
def soilStage (s : SoilSettings) (factor : Nat) (v : Soil) (c : CookStage) : Soil :=
  let t := v.residue + c.taken * s.weight c.mode * band c.setpoint * factor
  { v with score := min 65535 (v.score + t / 960), residue := t % 960 }

/-- The hygiene counter is charged with the cooking time (R98). -/
def chargeHygiene (total : Nat) (v : Soil) : Soil :=
  { v with hygiene := v.hygiene - (v.carry + total) / 60, carry := (v.carry + total) % 60 }

/-- The four values after a report (R97, R98). -/
def soilAfter (s : SoilSettings) (factor : Nat) (stages : List CookStage) (v : Soil) : Soil :=
  chargeHygiene (stages.map CookStage.taken).sum (stages.foldl (soilStage s factor) v)

/-- The level an evaluation demands (R99). -/
def SoilSettings.demanded (s : SoilSettings) (v : Soil) : Option Level :=
  if s.t4 ≤ v.score then some .intensive
  else if s.t3 ≤ v.score then some .heavy
  else if s.t2 ≤ v.score then some .medium
  else if s.t1 ≤ v.score ∨ v.hygiene = 0 then some .light
  else none

/-- The level that an evaluation of the slot would demand now. -/
def Recs.demandedAt (e : Env) (i : Fin 24) (r : Recs) : Option Level := (r.oven i).bind fun o => e.soil.demanded o.soil

/-- An evaluation of a slot: a demand is passed to the CLS (R99). -/
def Recs.evaluate (e : Env) (i : Fin 24) (r : Recs) : Recs :=
  match r.demandedAt e i with
  | some l => r.demand e i l
  | none => r

/-- An evaluation made only when the record is IN_SERVICE (R100). -/
def Recs.evaluateInService (e : Env) (i : Fin 24) (r : Recs) : Recs :=
  if r.lifecycleIs i .inService then r.evaluate e i else r

/-- A cook report is taken (R94). With no stage record it changes nothing. -/
def Recs.takeReport (e : Env) (i : Fin 24) (x : CookReport) (r : Recs) : Recs :=
  if x.stages.isEmpty then r
  else
    let s := r.soilFactor e x.recipe x.version
    (r.changeOven i fun o => { o with soil := soilAfter e.soil s x.stages o.soil }).evaluateInService e i

/-- The four values after a completed cleaning of a level (R101). -/
def SoilSettings.credited (s : SoilSettings) (l : Level) (v : Soil) : Soil :=
  match l with
  | .light => { v with score := v.score - s.creditLight, hygiene := s.reload, carry := 0 }
  | .medium => { v with score := v.score - s.creditMedium, hygiene := s.reload, carry := 0 }
  | .heavy => { v with score := v.score - s.creditHeavy, hygiene := s.reload, carry := 0 }
  | .intensive => { score := 0, residue := 0, hygiene := s.reload, carry := 0 }

/-- A cleaning completion (R101). -/
def Recs.credit (e : Env) (i : Fin 24) (l : Level) (r : Recs) : Recs :=
  r.changeOven i fun o => { o with soil := e.soil.credited l o.soil }

/-- A waive (R102). -/
def Recs.waiveSoil (e : Env) (i : Fin 24) (r : Recs) : Recs :=
  r.changeOven i fun o =>
    { o with soil := { o.soil with score := min o.soil.score (e.soil.t1 - 1), hygiene := e.soil.reload, carry := 0 } }

end Sys2Proof.Machine
end

