-- ==== Sys2Proof/Machine/Flt.lean ====
section
/-!
DEFINITION. The Fleet Table's shared operations (chapter 1), with what an event of an oven does at each block:
contexts and activity, loading and rejoin, missed turns and reachability, capability reports, boots and activation
timeouts, duplicate serials, discovery replies and retirement.
-/
namespace Sys2Proof.Machine

/-! ## Cook contexts (R16 to R18) -/

/-- A cook context is closed; if it was counted, its record loses a cook and may be released (R16, R67). -/
def Recs.closeCook (e : Env) (i : Fin 24) (r : Recs) : Recs :=
  match (r.oven i).bind fun o => o.cook with
  | none => r
  | some c =>
    let r1 := r.modOven i fun o => { o with cook := none }
    match c.counted, c.version with
    | true, some v => r1.releaseTest e c.recipe v
    | _, _ => r1

/-- A cook context is opened at the current minute (R16 step 4, R17 step 2). -/
def Recs.openCook (e : Env) (i : Fin 24) (recipe : Nat) (version : Option Nat) (counted : Bool) (r : Recs) : Recs :=
  r.modOven i fun o =>
    { o with cook := some { recipe := recipe, version := version, startedAt := e.minute, counted := counted } }

/-! ## Lifecycle moves -/

/-- A move to a lifecycle state with a commissioning step; the state is persisted, so the index is marked (R1). -/
def Recs.moveTo (i : Fin 24) (l : Lifecycle) (step : Option CommStep) (r : Recs) : Recs :=
  r.changeOven i fun o => { o with lifecycle := l, step := step }

/-- The commissioning step is written, which is volatile. -/
def Recs.setStep (i : Fin 24) (step : Option CommStep) (r : Recs) : Recs := r.modOven i fun o => { o with step := step }

/-- A record that was IN_SERVICE has left it: its grant is revoked and its wave member leaves the wave (R116, R157). -/
def Recs.leftService (e : Env) (i : Fin 24) (r : Recs) : Recs := (r.revoke e i).leaveWave e i .notInService

/-- A move to REJOINING, or a new step for a record already there (R7, R11, R13, R161). -/
def Recs.rejoin (e : Env) (i : Fin 24) (step : CommStep) (r : Recs) : Recs :=
  if r.lifecycleIs i .rejoining then r.setStep i (some step)
  else
    let r1 := r.moveTo i .rejoining (some step)
    if r.lifecycleIs i .inService then r1.leftService e i else r1

/-- What a record's entry to IN_SERVICE brings: its COMMISSION ticket resolves, its soil is evaluated and the arbiter
runs (R8, R12, R113, R131). -/
def Recs.enteredService (e : Env) (i : Fin 24) (r : Recs) : Recs :=
  ((r.resolvePart e i commissionClass).evaluateInService e i).arbiter e

/-- The three conditions of R8. -/
def Oven.loaded (o : Oven) : Bool :=
  (o.carried.all fun c => decide (c.state ≠ some .loading) && decide (c.state ≠ some .dropping))
    && !o.clearPending && !o.workWanted

/-- The loading test: a LOADING record whose store is as its target wants it goes into service (R8). -/
def Recs.loadingTest (e : Env) (i : Fin 24) (r : Recs) : Recs :=
  if r.ovenIs i fun o => decide (o.lifecycle = .loading) && o.loaded then
    ((r.changeOven i fun o => { o with lifecycle := .inService, served := true }).latch .commissionDone).enteredService e i
  else r

/-- A recomputed target and the loading test that follows it (R75). -/
def Recs.retarget (e : Env) (i : Fin 24) (r : Recs) : Recs := (r.recompute i).loadingTest e i

/-- The target of every oven with a known capability recomputed (R75, R89): in slot order, each with its loading test before
the next oven's, DESIGN CHOICE (log 39). -/
def Recs.retargetAll (e : Env) (r : Recs) : Recs :=
  slots.foldl (fun r i => if r.ovenIs i fun o => o.capability.isSome then r.retarget e i else r) r

/-! ## Retirement (R21, R22) -/

/-- The slot is freed: a vacancy, and a mark at the bus master when the slot is in turn (R22, R28). -/
def Recs.freeSlot (i : Fin 24) (r : Recs) : Recs :=
  ((r.putOven i none).mark (.oven i)).modObm fun b => { b with freed := b.freed || decide (b.position = some i) }

/-- The slot of a record whose retirement has already proceeded is freed. A cook context that a later event of the same
turn opened ends with it, and each fall of a count brings the release test (R67, R68); the arbiter runs when the number
of ovens cleaning falls (R113). A ticket opened or a member added since the retirement proceeded is left: DESIGN CHOICE
(log 20). -/
def Recs.vacateSlot (e : Env) (i : Fin 24) (r : Recs) : Recs :=
  let r1 := ((r.closeCook e i).emptyCarried e i).freeSlot i
  if r.activityIs i .cleaning then r1.arbiter e else r1

/-- The release telegram is skipped (R22 step 6). -/
def Oven.releaseSkipped (o : Oven) : Bool :=
  o.retireForced || o.unreachable || decide (o.lifecycle = .addressing) || decide (o.lifecycle = .failed)

/-- Retirement proceeds (R22). A grant is revoked first, with the tests of R116 and no arbiter run, and what it owes the oven goes
with it. With the two lists of its store a pending CLEAR_SET goes too: DEDUCED (log 19). The tests of R163 follow also when the
oven had no member, so a READY member of its zone may be activated then: DESIGN CHOICE (log 27). -/
def Recs.retireProceed (e : Env) (i : Fin 24) (r : Recs) : Recs :=
  match r.oven i with
  | none => r
  | some o =>
    let r1 := (r.closeCook e i).endGrant e i
    let r2 := match o.obligation with
      | some _ => r1.changeOven i fun o => { o with obligation := none }
      | none => r1
    let r3 := (r2.modOven i fun o => { o with grantTelegram := .none, revokeOwed := false, overdueLock := false }).removeMember i
    let r4 := (r3.modOven i fun o => { o with abortOwed := none }).dropTickets fun t => decide (t.slot = i)
    let r5 := r4.storeAfresh e i false
    let r6 := if o.releaseSkipped then r5.freeSlot i
      else (r5.changeOven i fun o => { o with lifecycle := .retiring, step := some .release, releaseDue := false })
    let r7 := r6.afterRemoval e o.zone
    if o.activity = .cleaning ∧ o.releaseSkipped then r7.arbiter e else r7

/-- A waiting retirement proceeds once its oven is IDLE and no member of it is ACTIVATING (R21). -/
def Recs.retireIfIdle (e : Env) (i : Fin 24) (r : Recs) : Recs :=
  if (r.ovenIs i fun o => decide (o.lifecycle = .retiring) && decide (o.step ≠ some .release) && decide (o.activity = .idle))
      && !r.activating i
  then r.retireProceed e i
  else r

/-! ## Activity (R16, R113, R158) -/

/-- What a change of activity to IDLE brings: the arbiter, a waiting retirement, the activation check (R21, R113, R158), in this
order: DESIGN CHOICE (log 9). -/
def Recs.idleEffects (e : Env) (i : Fin 24) (r : Recs) : Recs := ((r.arbiter e).retireIfIdle e i).activationCheck e

/-- The record takes an activity that no cleaning event gave, with what the change brings (R16, R120, R160). -/
def Recs.takeActivity (e : Env) (i : Fin 24) (a : Activity) (r : Recs) : Recs :=
  if r.activityIs i a then r
  else
    let r1 := match a with
      | .cleaning => r.cleanStart e i
      | _ =>
        let r0 := r.modOven i fun o => { o with activity := a }
        if r.activityIs i .cleaning then r0.cleanLost e i else r0
    match a with
    | .idle => r1.idleEffects e i
    | .cooking => r1.backToReady e i
    | .cleaning => r1.backToReady e i
    | .updating => r1

/-- The cook context is brought into line with a reported activity and recipe id (R16 steps 2 to 4). -/
def Recs.reconcileCook (e : Env) (i : Fin 24) (a : Activity) (recipe : Nat) (r : Recs) : Recs :=
  match (r.oven i).bind fun o => o.cook with
  | some c =>
    if a ≠ .cooking then r.closeCook e i
    else if c.recipe ≠ recipe then (r.closeCook e i).openCook e i recipe none false
    else r
  | none => if a = .cooking then r.openCook e i recipe none false else r

/-- A RUNNING obligation whose oven does not report CLEANING returns to DUE (R120). An activity that leaves CLEANING has
done so already; this is the restored obligation that the first status block settles (R124). -/
def Recs.settleRunning (e : Env) (i : Fin 24) (a : Activity) (r : Recs) : Recs :=
  if a ≠ .cleaning ∧ r.oblIs i .running = true then r.cleanLost e i else r

/-- The status block is reconciled (R16). The context is settled before the effects of the activity change, so that a
retirement that the change lets proceed finds it settled. -/
def Recs.reconcile (e : Env) (i : Fin 24) (a : Activity) (recipe : Nat) (r : Recs) : Recs :=
  ((r.reconcileCook e i a recipe).takeActivity e i a).settleRunning e i a

/-- COOK_START (R17); version 0 is unknown (log 16). -/
def Recs.cookStart (e : Env) (i : Fin 24) (recipe version : Nat) (r : Recs) : Recs :=
  let r1 := r.closeCook e i
  let known := decide (recipe ≠ 0) && (r1.recordOf recipe version).isSome
  let r2 := r1.openCook e i recipe (if version = 0 then none else some version) known
  let wasCleaning := r2.activityIs i .cleaning
  let r3 := r2.modOven i fun o => { o with activity := .cooking }
  (if wasCleaning then r3.cleanLost e i else r3).backToReady e i

/-- COOK_END (R18). -/
def Recs.cookEnd (e : Env) (i : Fin 24) (x : CookReport) (r : Recs) : Recs :=
  ((r.takeReport e i x).closeCook e i).takeActivity e i .idle

/-- CLEAN_START (R117, R160). -/
def Recs.cleanStarted (e : Env) (i : Fin 24) (r : Recs) : Recs := (r.cleanStart e i).backToReady e i

/-- CLEAN_END (R118, R119). One that is ABORTED and finds the activity IDLE and no RUNNING obligation runs no arbiter: DESIGN
CHOICE (log 43). -/
def Recs.cleanEnded (e : Env) (i : Fin 24) (l : Level) (complete : Bool) (r : Recs) : Recs :=
  let wasIdle := r.activityIs i .idle
  let r1 := r.modOven i fun o => { o with activity := .idle }
  let r2 :=
    if complete then
      (((((r1.credit e i l).removeObl i).resolvePart e i hygieneClass).evaluateInService e i).arbiter e)
    else r1.cleanAborted e i
  if wasIdle then r2 else r2.idleEffects e i

/-! ## Missed turns and reachability (R9, R14, R15) -/

/-- The record moves to FAILED (R9). -/
def Recs.failCommission (e : Env) (i : Fin 24) (r : Recs) : Recs :=
  ((((r.moveTo i .failed none).closeCook e i).takeActivity e i .idle).raise e i commissionClass .degraded).latch .commissionFailed

/-- The unreachable flag sets, UNREACHABLE latches and a wave member leaves its wave (R14, R157). -/
def Recs.goUnreachable (e : Env) (i : Fin 24) (r : Recs) : Recs :=
  ((r.modOven i fun o => { o with unreachable := true }).latch .unreachable).leaveWave e i .unreachable

/-- What the FLT does with a missed-turn count that has risen (R9, R14). -/
def Recs.actOnMissed (e : Env) (i : Fin 24) (r : Recs) : Recs :=
  match r.oven i with
  | none => r
  | some o =>
    match o.lifecycle with
    | .addressing | .profiling | .loading => if Config.missedLimit ≤ o.missed then r.failCommission e i else r
    | .inService =>
      if Config.unreachableAt ≤ o.missed ∧ !o.unreachable then
        let r1 := r.goUnreachable e i
        if e.profile.link then r1.raise e i linkClass .notice else r1
      else r
    | .rejoining => if Config.missedLimit ≤ o.missed ∧ !o.unreachable then r.goUnreachable e i else r
    | .retiring => if Config.unreachableAt ≤ o.missed ∧ !o.unreachable then r.goUnreachable e i else r
    | .failed => r

/-- A missed turn: the count rises, saturating at 5, unless a member of the oven is ACTIVATING (R32, R33). -/
def Recs.missedTurn (e : Env) (i : Fin 24) (r : Recs) : Recs :=
  if r.activating i then r
  else (r.modOven i fun o => { o with missed := min Config.missedLimit (o.missed + 1) }).actOnMissed e i

/-- A valid reply proves the oven reachable (R15); a cleared flag runs the arbiter and the activation check (R113,
R158), in this order: DESIGN CHOICE (log 9). -/
def Recs.heard (e : Env) (i : Fin 24) (r : Recs) : Recs :=
  let was := r.ovenIs i fun o => o.unreachable
  let r1 := (r.modOven i fun o => { o with missed := 0, lastHeard := e.minute, unreachable := false }).resolvePart e i linkClass
  if was then (r1.arbiter e).activationCheck e else r1

/-! ## Commissioning answers (R6, R7, R12) -/

/-- A valid reply to an ASSIGN: ADDRESSING becomes PROFILING; in REJOINING the re-address is cleared (R6, R11). -/
def Recs.assignAnswered (i : Fin 24) (r : Recs) : Recs :=
  if r.lifecycleIs i .addressing then r.moveTo i .profiling (some .capsReq)
  else if r.ovenIs i fun o => decide (o.lifecycle = .rejoining) && decide (o.step = some .assign) then r.setStep i (some .capsReq)
  else r

/-- The end of a stranger's RELEASE exchange, answered or not (R7, R12, R33). -/
def Recs.strangerReleased (i : Fin 24) (r : Recs) : Recs :=
  match r.oven i with
  | none => r
  | some o =>
    if o.step = some .release then
      match o.lifecycle with
      | .profiling => r.moveTo i .addressing (some .assign)
      | .rejoining => r.setStep i (some .capsReq)
      | _ => r
    else r

/-- A CAPS report as decoded and clamped (R190, R191). -/
structure CapsReport where
  serial     : Serial
  model      : Nat
  firmware   : Firmware
  capability : Capability
  digest     : BitVec 32
  deriving DecidableEq, Repr

/-- Capability, model code and firmware version are stored (R7). -/
def Recs.storeCaps (i : Fin 24) (x : CapsReport) (r : Recs) : Recs :=
  r.changeOven i fun o => { o with capability := some x.capability, model := x.model, firmware := x.firmware }

/-- The target follows a stored capability, and a list that has become too long is emptied (R75, R84). -/
def Recs.refit (e : Env) (i : Fin 24) (r : Recs) : Recs := (r.recompute i).shrinkCheck e i

/-- The report of a record in REJOINING with its own serial (R12). -/
def Recs.rejoined (e : Env) (i : Fin 24) (x : CapsReport) (served : Bool) (r : Recs) : Recs :=
  let r1 := ((r.storeCaps i x).compareDigest i x.digest).refit e i
  let r2 := r1.changeOven i fun o =>
    { o with step := none, missed := 0, unreachable := false, lifecycle := if served then .inService else .loading }
  if served then r2.enteredService e i else r2.loadingTest e i

/-- A CAPS report (R7, R12). One with serial 0 is dropped (R1). -/
def Recs.capsReport (e : Env) (i : Fin 24) (x : CapsReport) (r : Recs) : Recs :=
  match r.oven i with
  | none => r
  | some o =>
    if x.serial = 0#48 then r
    else if x.serial = o.serial then
      match o.lifecycle with
      | .profiling => (((r.storeCaps i x).moveTo i .loading none).storeAfresh e i true).retarget e i
      | .rejoining => r.rejoined e i x o.served
      | .loading | .inService =>
        (((((r.storeCaps i x).compareDigest i x.digest).refit e i).modOven i fun o =>
          { o with step := if o.step = some .capsReq then none else o.step })).loadingTest e i
      | .addressing | .retiring => (r.storeCaps i x).refit e i
      | .failed => r
    else
      match o.lifecycle with
      | .profiling => r.setStep i (some .release)
      | .rejoining => r.setStep i (some .release)
      | .loading | .inService => r.rejoin e i .release
      | .addressing | .retiring | .failed => r

/-! ## Boots and activations (R13, R161, R162) -/

/-- BOOTED ends an activation (R161). The arbiter runs once, before the activation check, when the record stands where
the event leaves it (log 17). The check examines the READY members of every zone: DESIGN CHOICE (log 27). -/
def Recs.bootedActivating (e : Env) (i : Fin 24) (fw target : Firmware) (r : Recs) : Recs :=
  let ok := decide (fw = target)
  let r1 := r.endActivating i fun m =>
    if ok then { m with state := .done } else { m with state := .failed, fail := some .rollback }
  let r2 := if ok then r1 else r1.raise e i updateClass .degraded
  let wasCleaning := r2.activityIs i .cleaning
  let r3 := (r2.changeOven i fun o => { o with firmware := fw, activity := .idle }).storeAfresh e i false
  let r4 := if r3.lifecycleIs i .inService || r3.lifecycleIs i .rejoining then r3.rejoin e i .capsReq else r3
  let r5 := ((if wasCleaning then r4.cleanLost e i else r4).retireIfIdle e i).latch .campaign
  ((((r5.mark .campaign).mark (.oven i)).arbiter e).activationCheck e).finishTest

/-- BOOTED: to the UPE while a member is ACTIVATING, otherwise to the FLT (R13, R36, R161). -/
def Recs.booted (e : Env) (i : Fin 24) (fw : Firmware) (r : Recs) : Recs :=
  match r.activating i, r.campaign with
  | true, some c => r.bootedActivating e i fw c.firmware
  | _, _ =>
    if r.lifecycleIs i .inService || r.lifecycleIs i .loading then r.rejoin e i .capsReq else r

/-- The activation timer has run out (R162). The arbiter of R113 runs as the member leaves ACTIVATING, before the ticket, a
waiting retirement and the activation check: DESIGN CHOICE (log 9). -/
def Recs.activationTimedOut (e : Env) (i : Fin 24) (r : Recs) : Recs :=
  if r.activating i then
    let r1 := r.leaveActivating e i fun m => { m with state := .failed, fail := some .timeout }
    let r2 := ((r1.raise e i updateClass .degraded).latch .campaign).retireIfIdle e i
    (r2.activationCheck e).finishTest
  else r

/-! ## Discovery (R3, R11) -/

/-- The slot of the occupied record with a serial. -/
def Recs.slotOfSerial (r : Recs) (s : Serial) : Option (Fin 24) := slots.find? fun i => r.ovenIs i fun o => decide (o.serial = s)

/-- A discovery reply with the serial of an occupied record (R11). -/
def Recs.duplicate (e : Env) (i : Fin 24) (r : Recs) : Recs :=
  match r.oven i with
  | none => r
  | some o =>
    match o.lifecycle with
    | .inService | .loading | .profiling | .rejoining => r.rejoin e i .assign
    | .addressing | .failed | .retiring => r

/-- The discovery entry of a serial is renewed (R3 step 4). -/
def Discovered.renew (serial : Serial) (model : Nat) (fw : Firmware) (d : Discovered) : Discovered :=
  if d.serial = serial then { d with model := model, firmware := fw, sightings := min 255 (d.sightings + 1) } else d

/-- A valid discovery reply (R3). -/
def Recs.discoveryReply (e : Env) (serial : Serial) (model : Nat) (fw : Firmware) (r : Recs) : Recs :=
  if serial = 0#48 then r
  else match r.slotOfSerial serial with
    | some i => r.duplicate e i
    | none =>
      if r.ignored.contains serial then r
      else if (r.discovered.any fun d => decide (d.serial = serial)) = true then
        { r with discovered := r.discovered.map (Discovered.renew serial model fw) }
      else if r.discovered.length < Config.discoveryCapacity then
        { r with discovered := r.discovered ++
            [{ serial := serial, model := model, firmware := fw, sightings := 1, firstSeen := e.minute }] }
      else r

end Sys2Proof.Machine
end

