-- ==== Sys2Proof/Machine/Obm.lean ====
section
/-!
DEFINITION. The Oven Bus Master's shared operations (chapter 2): frames, selection, turns and rounds, attempts and
their outcomes, replies and their decoding (R190, R191), events and status, image chunks, sweeps and HALTs.
-/
namespace Sys2Proof.Machine

/-! ## Frames (R25, R189) -/

/-- A bus frame. -/
def busFrame (address kind : Byte) (payload : List Byte) : List Byte :=
  let covered := [address, kind] ++ u8 payload.length ++ payload
  Config.startByte :: covered ++ crc16Bytes covered

/-- The broadcast address. -/
def broadcast : Byte := 0xFF#8

/-- A frame is put on the line. -/
def Recs.send (frame : List Byte) (r : Recs) : Recs := r.modObm fun b => { b with line := frame }

/-- The payload of a frame heard on the line, when its start byte, address, kind, length and CRC-16 are as expected
(R31, R40, R189). -/
def payloadOf (address kind : Byte) (frame : List Byte) : Option (List Byte) :=
  let len := (byteAt frame 3).toNat
  let covered := (frame.drop 1).take (3 + len)
  if byteAt frame 0 = Config.startByte ∧ byteAt frame 1 = address ∧ byteAt frame 2 = kind ∧ frame.length = 6 + len
      ∧ frame.drop (4 + len) = crc16Bytes covered
  then some ((frame.drop 4).take len) else none

/-- The control byte of an addressed telegram to a slot: strength, acknowledgement tag, acknowledgement-valid mark
(R29, R189). The tag bit is 0 while the accepted tag is none, and bits 4 to 7 are 0: DESIGN CHOICE (log 47). -/
def Recs.controlByte (r : Recs) (i : Fin 24) : Byte :=
  let tag := (r.oven i).bind fun o => o.tag
  BitVec.ofNat 8 ((r.strength i).code + 4 * (tag.getD false).toNat + 8 * tag.isSome.toNat)

/-! ## Selection (R2, R29, R151) -/

/-- The commissioning step the FLT offers: a retirement release only once it is due (R2, R22). -/
def Oven.stepOffered (o : Oven) : Option CommStep :=
  if o.lifecycle = .retiring ∧ !o.releaseDue then none else o.step

/-- What the FLT offers (R29 place 1). -/
def Oven.fltWork (o : Oven) : Option Work :=
  match o.stepOffered with
  | some .assign => some .assign
  | some .capsReq => some .capsReq
  | some .release => some (.release (decide (o.lifecycle = .retiring)))
  | none => none

/-- What the CLS offers (R29 places 2 and 3, R114, R116). -/
def Oven.clsWork (o : Oven) : Option Work :=
  if o.revokeOwed then some .revoke
  else if o.grantTelegram = .owed then (o.obligation.bind fun b => b.grant).map fun g => .grant g.level
  else none

/-- What the UPE offers (R29 place 4, R151): to a RETIRING oven nothing but an abort owed. -/
def Recs.upeWork (r : Recs) (i : Fin 24) (o : Oven) : Option Work :=
  match o.abortOwed with
  | some c => some (.abort c)
  | none => if o.lifecycle = .retiring then none else (r.member i).bind fun m => m.owed.map .update

/-- The telegram of the next exchange with a slot: the first owner that has work, else POLL (R29). -/
def Recs.selectWork (e : Env) (i : Fin 24) (o : Oven) (r : Recs) : Work :=
  ((((o.fltWork).orElse fun _ => o.clsWork).orElse fun _ => r.upeWork i o).orElse fun _ => o.rdeWork e).getD .poll

/-- The kind of a work's telegram (R29, R189). -/
def Work.kind : Work → Kind
  | .assign => .assign
  | .capsReq => .capsReq
  | .release _ => .release
  | .revoke => .grantRevoke
  | .grant _ => .cleanGrant
  | .abort _ => .updateAbort
  | .update .begin => .updateBegin
  | .update .finish => .updateEnd
  | .update .verify => .updateVerify
  | .update .activate => .updateActivate
  | .clearSet => .clearSet
  | .drop _ => .recipeDrop
  | .load _ _ => .recipeLoad
  | .poll => .poll

/-- The payload of a work's telegram after the control byte (R189). -/
def Recs.workPayload (r : Recs) (i : Fin 24) (o : Oven) : Work → List Byte
  | .assign => u48 o.serial.toNat ++ [addressOf i]
  | .grant l => u8 l.code
  | .abort c => u16 c
  | .update .begin =>
    match r.campaign with
    | some c => u16 c.id ++ u16 c.chunks ++ u32 c.crc.toNat ++ u32 c.length
    | none => []
  | .update _ =>
    match r.campaign with
    | some c => u16 c.id
    | none => []
  | .drop id => u16 id
  | .load id v => ((r.loadOf i id v).map Prod.fst).getD []
  | .capsReq | .release _ | .revoke | .clearSet | .poll => []

/-- An ASSIGN goes to address 0, any other work to the slot's address (R25). -/
def Work.address (i : Fin 24) : Work → Byte
  | .assign => 0#8
  | _ => addressOf i

/-- What an owner records when its telegram is selected: the CLS marks its grant telegram SENT (R114), the RDE its work
in flight (R80), the UPE that its telegram has been put on the line (R151, R165). -/
def Recs.commitWork (i : Fin 24) (w : Work) (r : Recs) : Recs :=
  match w with
  | .grant _ => r.modOven i fun o => { o with grantTelegram := .sent }
  | .update _ => r.modMember i fun m => { m with onLine := true }
  | .drop _ => r.modOven i fun o => o.beginWork false w
  | .load id v => r.modOven i fun o => o.beginWork (((r.loadOf i id v).map Prod.snd).getD false) w
  | _ => r

/-- One attempt of an exchange: the held telegram is sent with fresh control fields and the part listens (R29, R31). -/
def Recs.attempt (i : Fin 24) (x : Exchange) (r : Recs) : Recs :=
  r.modObm fun b =>
    { b with
      exchange := some { x with attempts := x.attempts + 1, carried := r.strength i }
      phase := .listening
      line := busFrame x.address x.kind.code (r.controlByte i :: x.payload) }

/-- The next exchange of a turn is selected and its first attempt made (R29). -/
def Recs.beginExchange (e : Env) (i : Fin 24) (r : Recs) : Recs :=
  match r.oven i with
  | none => r
  | some o =>
    let w := r.selectWork e i o
    let x : Exchange := { work := w, kind := w.kind, address := w.address i, payload := r.workPayload i o w, attempts := 0
                          carried := .none }
    ((r.commitWork i w).modObm fun b => { b with exchanges := b.exchanges + 1 }).attempt i x

/-! ## End of round (R38 to R40) -/

/-- The lowest chunk in the window (R38). -/
def Campaign.lowestChunk (c : Campaign) : Option Chunk :=
  c.window.foldl (fun best k => match best with
    | some b => if k.index < b.index then some k else best
    | none => some k) none

/-- The chunk that the DATA step would broadcast now: none once the rate is reached, the window is empty or no campaign
is present (R38). -/
def Recs.nextChunk (r : Recs) : Option (Campaign × Chunk) :=
  if r.obm.dataSent < r.obm.rate then r.campaign.bind fun c => c.lowestChunk.map fun k => (c, k) else none

/-- A sweep ends this round (R39). -/
def Obm.sweepWanted (b : Obm) (interval : Nat) : Bool :=
  b.sweepNow || (decide (interval ≠ 0) && (decide (b.round % interval = 0) || !b.hadTurn))

/-- The DATA step has ended: a sweep is due, or the round ends (R27, R39). -/
def Recs.afterData (e : Env) (r : Recs) : Recs :=
  r.modObm fun b => { b with phase := if b.sweepWanted e.discovery then .sweepDue else .waiting }

/-- The DATA step goes on while there is a chunk to broadcast (R38). -/
def Recs.dataStep (e : Env) (r : Recs) : Recs :=
  match r.nextChunk with
  | some _ => r.modObm fun b => { b with phase := .data }
  | none => r.afterData e

/-- One DATA broadcast (R38, R153). -/
def Recs.broadcastChunk (e : Env) (c : Campaign) (k : Chunk) (r : Recs) : Recs :=
  let r1 := r.send (busFrame broadcast Kind.data.code (u16 c.id ++ u16 k.index ++ k.data))
  let r2 := r1.modCampaign fun c => { c with window := c.window.filter fun x => decide (x.index ≠ k.index) }
  ((r2.chunkSent k.index).modObm fun b => { b with dataSent := b.dataSent + 1 }).dataStep e

/-! ## Turns and rounds (R27, R28, R30) -/

/-- A turn begins: a retirement release falls due (R22), a returned READY member may be activated again, and a READY
member brings the activation check (R158). -/
def Recs.beginTurn (e : Env) (i : Fin 24) (r : Recs) : Recs :=
  let r1 := r.modObm fun b =>
    { b with phase := .turn, position := some i, freed := false, exchange := none, exchanges := 0, hadTurn := true }
  let r2 := r1.modOven i fun o =>
    { o with releaseDue := o.releaseDue || (decide (o.lifecycle = .retiring) && decide (o.step = some .release)) }
  let r3 := r2.modMember i fun m => { m with waits := false }
  if r3.memberIs i .ready then r3.activationCheck e else r3

/-- The lowest slot above the turn position whose record gets a turn (R2, R28). -/
def Recs.nextSlot (r : Recs) : Option (Fin 24) :=
  slots.find? fun i =>
    (match r.obm.position with | some p => decide (p < i) | none => true) && r.ovenIs i fun o => decide (o.lifecycle ≠ .failed)

/-- The next turn begins, or the round moves to its end-of-round work (R28). -/
def Recs.nextTurn (e : Env) (r : Recs) : Recs :=
  match r.nextSlot with
  | some i => r.beginTurn e i
  | none => (r.modObm fun b => { b with exchange := none, freed := false }).dataStep e

/-- A turn that ends while the oven's member is a QUEUED wave member raises its begin turns; at 5 the member leaves the
wave (R150). -/
def Recs.countBeginTurn (e : Env) (i : Fin 24) (r : Recs) : Recs :=
  match r.member i with
  | none => r
  | some m =>
    if m.state = .queued ∧ m.wave = true then
      let n := min Config.beginTurnLimit (m.beginTurns + 1)
      let r1 := r.modMember i fun m => { m with beginTurns := n }
      if Config.beginTurnLimit ≤ n then r1.leaveWave e i ((r1.deferralOf i).getD .unreachable) else r1
    else r

/-- The turn of slot `i` ends and the round goes on; a slot freed in its turn takes nothing more (R28, R30). -/
def Recs.endTurn (e : Env) (i : Fin 24) (r : Recs) : Recs :=
  (if r.obm.freed then r else r.countBeginTurn e i).nextTurn e

/-- A round starts (R27); the first round after GO_LIVE or a BUS reset keeps number 0. -/
def Recs.startRound (e : Env) (first : Bool) (r : Recs) : Recs :=
  (r.modObm fun b =>
    { b with
      round := if first then 0 else (b.round + 1) % 65536
      startTick := some e.tick, interval := e.profile.interval, rate := e.profile.rate
      position := none, freed := false, exchange := none, exchanges := 0, hadTurn := false, dataSent := 0 }).nextTurn e

/-- A new round may start: the last has ended and its interval has elapsed since its start (R27). -/
def Recs.roundDue (e : Env) (r : Recs) : Bool :=
  e.live && decide (r.obm.phase = .waiting)
    && match r.obm.startTick with
       | some t => decide (t + r.obm.interval ≤ e.tick)
       | none => false

/-- What the bus master does with no frame and no timer to wait for: a turn whose slot was freed between two exchanges
ends, and a DATA step that has nothing left to send ends (R28, R38). -/
def Recs.settleBus (e : Env) (r : Recs) : Recs :=
  match r.obm.phase, r.obm.position with
  | .turn, some i => if r.obm.freed then r.endTurn e i else r
  | .data, _ => r.dataStep e
  | _, _ => r

/-! ## Replies (R31, R35, R36, R190, R191) -/

/-- A status block (R35, R189). -/
structure Status4 where
  activity : Nat
  recipe   : Nat
  applied  : Strength
  more     : Bool
  deriving DecidableEq, Repr

/-- The status block at the head of a reply payload. -/
def statusOf (p : List Byte) : Status4 :=
  { activity := numAt p 0 1, recipe := numAt p 1 2, applied := strengthOfCode ((byteAt p 3).toNat % 4), more := bitOf (byteAt p 3) 2 }

/-- The events that a reply may carry (R36). -/
inductive Event where
  | cookStart (recipe version : Nat)
  | cookEnd (report : CookReport)
  | cleanStart
  | cleanEnd (level : Level) (complete : Bool)
  | fault (cls : Fin 32) (code : BitVec 16) (severity : Severity)
  | faultClear (cls : Fin 32)
  | recipeAck (recipe version : Nat) (ok : Bool)
  | updateReady (campaign : Nat) (ok : Bool)
  | updateGap (campaign : Nat) (indices : List Nat)
  | updateComplete (campaign : Nat)
  | verifyResult (campaign result : Nat)
  | booted (firmware : Firmware)
  | caps (report : CapsReport)
  deriving DecidableEq, Repr

/-- A stage record of a cook report at place `k` (12.2). -/
def cookStageAt (p : List Byte) (k : Nat) : CookStage :=
  { mode := numAt p k 1, setpoint := numAt p (k + 1) 2, seconds := numAt p (k + 3) 2 }

/-- The capability of a CAPS report, clamped (R191). -/
def capabilityAt (p : List Byte) (k : Nat) : Capability :=
  { tempMin := clamp 30 120 (numAt p k 1), tempMax := clamp 150 300 (numAt p (k + 1) 2)
    steam := bitOf (byteAt p (k + 3)) 0, probe := bitOf (byteAt p (k + 3)) 1
    maxStages := clamp 6 12 (numAt p (k + 4) 1), capacity := clamp 8 40 (numAt p (k + 5) 1) }

/-- A model code clamped into 1..65534 (R3, R190). -/
def modelClamped (n : Nat) : Nat := clamp 1 65534 n

/-- An event payload of a kind; none for a kind the part does not know, one shorter than its fixed part, and a gap
event with no index taken (R36, R190, R191). -/
def eventOf (kind : Nat) (p : List Byte) : Option Event :=
  let long (n : Nat) (v : Event) : Option Event := if n ≤ p.length then some v else none
  match kind with
  | 0x01 => long 3 (.cookStart (numAt p 0 2) (numAt p 2 1))
  | 0x02 =>
    let n := min (min (numAt p 4 1) ((p.length - 5) / 6)) 12
    long 5 (.cookEnd { recipe := numAt p 0 2, version := numAt p 2 1, done := decide (numAt p 3 1 = 0)
                       stages := (List.range n).map fun k => cookStageAt p (5 + 6 * k) })
  | 0x03 => long 1 .cleanStart
  | 0x04 => long 2 (.cleanEnd (levelRead (numAt p 0 1)) (decide (numAt p 1 1 = 0)))
  | 0x05 => long 4 (.fault (ovenClass (numAt p 0 1)) (BitVec.ofNat 16 (numAt p 1 2)) (faultSeverity (numAt p 3 1)))
  | 0x06 => long 1 (.faultClear (ovenClass (numAt p 0 1)))
  | 0x07 => long 4 (.recipeAck (numAt p 0 2) (numAt p 2 1) (decide (numAt p 3 1 = 0)))
  | 0x08 => long 3 (.updateReady (numAt p 0 2) (decide (numAt p 2 1 = 0)))
  | 0x09 =>
    let n := min (min (numAt p 2 1) ((p.length - 3) / 2)) 4
    if n = 0 then none else long 3 (.updateGap (numAt p 0 2) ((List.range n).map fun k => numAt p (3 + 2 * k) 2))
  | 0x0A => long 2 (.updateComplete (numAt p 0 2))
  | 0x0B => long 3 (.verifyResult (numAt p 0 2) (numAt p 2 1))
  | 0x0C => long 4 (.booted (firmwareAt p 0))
  | 0x0D =>
    long 22 (.caps { serial := BitVec.ofNat 48 (numAt p 0 6), model := modelClamped (numAt p 6 2), firmware := firmwareAt p 8
                     capability := capabilityAt p 12, digest := BitVec.ofNat 32 (numAt p 18 4) })
  | _ => none

/-- What a reply payload carries besides its status block: nothing (event NONE), or an event tag with an event, if the
event is one the part takes (R190). -/
def taggedEvent (p : List Byte) : Option (Bool × Option Event) :=
  if p.length < 6 ∨ numAt p 4 1 = 0 then none
  else some (bitOf (byteAt p 5) 0, eventOf (numAt p 4 1) (p.drop 6))

/-- An event is delivered (R36). -/
def Recs.deliver (e : Env) (i : Fin 24) (ev : Event) (r : Recs) : Recs :=
  match ev with
  | .cookStart id v => r.cookStart e i id v
  | .cookEnd x => r.cookEnd e i x
  | .cleanStart => r.cleanStarted e i
  | .cleanEnd l ok => r.cleanEnded e i l ok
  | .fault k c v => r.report e i k c v .oven
  | .faultClear k => r.faultClear e i k
  | .recipeAck id v ok => (r.recipeAck e i id v ok).loadingTest e i
  | .updateReady c ok => r.updateReady e i c ok
  | .updateGap c gs => r.updateGap e i c gs
  | .updateComplete c => r.updateComplete i c
  | .verifyResult c x => r.verifyResult e i c x
  | .booted fw => r.booted e i fw
  | .caps x => r.capsReport e i x

/-- The event of a reply is accepted and delivered, or discarded as a repeat, by its tag (R37). -/
def Recs.takeEvent (e : Env) (i : Fin 24) (p : List Byte) (r : Recs) : Recs :=
  match taggedEvent p with
  | none => r
  | some (tag, ev) =>
    if r.ovenIs i fun o => decide (o.tag = some tag) then r
    else
      let r1 := r.modOven i fun o => { o with tag := some tag }
      match ev with
      | some ev => r1.withHolds e fun r => r.deliver e i ev
      | none => r1

/-- The status block of a reply: the more-events flag is kept, the FLT reconciles unless it is set or the activity code
names nothing, and the THU stores the applied strength (R16, R35, R138, R190). -/
def Recs.takeStatus (e : Env) (i : Fin 24) (carried : Strength) (s : Status4) (r : Recs) : Recs :=
  let r1 := r.modObm fun b => { b with more := s.more }
  let r2 := r1.modOven i fun o =>
    { o with applied := some s.applied, mismatch := decide (s.applied.code < carried.code) }
  match s.more, activityOfCode s.activity with
  | false, some a => if (r2.oven i).isSome then r2.withHolds e fun r => r.reconcile e i a s.recipe else r2
  | _, _ => r2

/-- The owner of an exchange's telegram is told that it was delivered (R32 step 2). An update telegram owed anew since the
exchange began is not the one it carried and stays owed: DEDUCED (R151; log 40). -/
def Recs.delivered (e : Env) (i : Fin 24) (w : Work) (r : Recs) : Recs :=
  match w with
  | .assign => r.assignAnswered i
  | .release false => r.strangerReleased i
  | .revoke => r.modOven i fun o => { o with revokeOwed := false }
  | .abort c => r.modOven i fun o => { o with abortOwed := if o.abortOwed = some c then none else o.abortOwed }
  | .update .activate =>
    if r.activating i then
      (r.modMember i fun m => { m with owed := none }).takeActivity e i .updating
    else r
  | .update k => r.modMember i fun m => { m with owed := if m.owed = some k ∧ m.onLine = true then none else m.owed }
  | .clearSet => (r.clearDelivered e i).loadingTest e i
  | .drop _ => r.modOven i Oven.deliverWork
  | .load _ _ => r.modOven i Oven.deliverWork
  | .capsReq | .release true | .grant _ | .poll => r

/-- The owner of an exchange's telegram is told that it was not delivered (R32). -/
def Recs.notDelivered (i : Fin 24) (w : Work) (r : Recs) : Recs :=
  match w with
  | .release false => r.strangerReleased i
  | .drop _ => r.modOven i Oven.abandonWork
  | .load _ _ => r.modOven i Oven.abandonWork
  | _ => r

/-- The turn goes on after a valid reply: fewer than four exchanges, and more events or work other than POLL (R30). -/
def Recs.turnGoesOn (e : Env) (i : Fin 24) (r : Recs) : Bool :=
  !r.obm.freed && decide (r.obm.exchanges < Config.turnExchanges)
    && match r.oven i with
       | some o => r.obm.more || decide (r.selectWork e i o ≠ .poll)
       | none => false

/-- A valid reply is handled in the order of R32, and the turn goes on or ends (R30). -/
def Recs.takeReply (e : Env) (i : Fin 24) (x : Exchange) (p : List Byte) (r : Recs) : Recs :=
  let r1 := (r.heard e i).withHolds e fun r => r.delivered e i x.work
  let r2 := (r1.takeEvent e i p).takeStatus e i x.carried (statusOf p)
  if r2.turnGoesOn e i then r2.modObm fun b => { b with phase := .turn, exchange := none } else r2.endTurn e i

/-- An exchange has ended with a valid reply, whose payload is given (R22, R28, R32). -/
def Recs.succeed (e : Env) (i : Fin 24) (x : Exchange) (p : List Byte) (r : Recs) : Recs :=
  if r.obm.freed then r.endTurn e i
  else if x.work = .release true then (r.vacateSlot e i).endTurn e i
  else r.takeReply e i x p

/-- An exchange has failed (R22, R28, R32, R33). The FLT acts on the missed turn before the end of the turn counts a begin turn:
DESIGN CHOICE (log 48). -/
def Recs.fail (e : Env) (i : Fin 24) (x : Exchange) (r : Recs) : Recs :=
  if r.obm.freed then r.endTurn e i
  else if x.work = .release true then (r.vacateSlot e i).endTurn e i
  else (((r.notDelivered i x.work).withHolds e fun r => r.missedTurn e i)).endTurn e i

/-- The payload of a reply that ends the exchange with the slot's oven: one that passes R31 and R190. -/
def replyPayload (i : Fin 24) (x : Exchange) (frame : List Byte) : Option (List Byte) :=
  match payloadOf (addressOf i) x.kind.code frame with
  | some p => if p.length < 4 ∨ p.length = 5 then none else some p
  | none => none

/-- The attempt has failed (R31). -/
def Recs.attemptFails (r : Recs) : Recs := r.modObm fun b => { b with phase := .attemptFailed }

/-! ## Discovery sweeps (R40) -/

/-- The reply slot of a serial under a seed (R40). -/
def replySlotOf (s : Serial) (seed : Nat) : Nat := Nat.xor (s.toNat % 256) seed % 8

/-- A frame heard in a reply slot of the window: a valid one goes to the FLT, any other is ignored (R3, R40, R190). -/
def Recs.hearDiscovery (e : Env) (slot : Fin 8) (frame : List Byte) (r : Recs) : Recs :=
  match payloadOf 0#8 Kind.discover.code frame with
  | none => r
  | some p =>
    let serial : Serial := BitVec.ofNat 48 (numAt p 0 6)
    if 16 ≤ p.length ∧ replySlotOf serial r.obm.seed = slot.val then
      r.discoveryReply e serial (modelClamped (numAt p 6 2)) (firmwareAt p 8)
    else r

/-! ## HALT (R41) -/

/-- A HALT request for a zone; in the RESTORE phase none is queued (R41). -/
def Recs.requestHalt (e : Env) (z : Fin 4) (r : Recs) : Recs :=
  if e.live then
    r.modObm fun b =>
      { b with halts :=
          if (b.halts.any fun h => decide (h.zone = z)) = true then b.halts.map fun h => if h.zone = z then { h with sends := 3 } else h
          else b.halts ++ [{ zone := z, sends := 3 }] }
  else r

/-- The addresses of the occupied slots of a zone, as the 3 bytes of HALT (R41, R189). -/
def Recs.addressSet (r : Recs) (z : Fin 4) : List Byte :=
  leBytes 3 ((slots.map fun i => if r.ovenIs i fun o => decide (o.zone = z) then 2 ^ i.val else 0).sum)

/-- A HALT may go out: the part is not listening for a reply or a sweep (R41). -/
def Obm.mayHalt (b : Obm) : Bool :=
  match b.phase with
  | .waiting | .turn | .attemptFailed | .data | .sweepDue => true
  | .silent | .listening | .window => false

/-- HALT is sent for the zone at the head of the queue (R41). -/
def Recs.sendHalt (r : Recs) : Recs :=
  match r.obm.halts with
  | [] => r
  | h :: hs =>
    r.modObm fun b =>
      { b with
        halts := if h.sends ≤ 1 then hs else { h with sends := h.sends - 1 } :: hs
        line := busFrame broadcast Kind.halt.code (u8 h.zone.val ++ r.addressSet h.zone) }

/-- The line is free for the part's own traffic: no HALT waits to go ahead of it (R41). -/
def Obm.lineFree (b : Obm) : Bool := b.halts.isEmpty

/-! ## BUS reset (R42) -/

/-- The bus master's values after a BUS reset, before round 0 starts (R26, R42). -/
def Obm.busReset (b : Obm) : Obm :=
  { b with phase := .silent, round := 0, startTick := none, position := none, freed := false, exchange := none, exchanges := 0
           hadTurn := false, dataSent := 0, seed := 0, sweepNow := false, heard := Vector.replicate 8 false, halts := [] }

end Sys2Proof.Machine
end

