-- ==== Sys2Proof/Machine/Scm.lean ====
section
/-!
DEFINITION. The Site Clock and Mode Unit's shared operations (chapter 3): mode changes, the day-part schedule, and
the minute expiry.
-/
namespace Sys2Proof.Machine

/-- The records changed by `f` under the present settings, with what its changes of hold reasons bring (R136). -/
def Site.holding (f : Env → Recs → Recs) (st : Site) : Site := { st with recs := st.recs.withHolds st.env (f st.env) }

/-- A change of the records that touches no hold reason. -/
def Site.modRecs (f : Recs → Recs) (st : Site) : Site := { st with recs := f st.recs }

/-- A change of a setting, which marks the SETTINGS index (R179). -/
def Site.changeSettings (f : Env → Env) (st : Site) : Site := { env := f st.env, recs := st.recs.mark .settings }

/-- The current mode takes a value; a different one is a mode change: MODE_CHANGED latches, the CLS checks the limit
and runs its arbiter, the UPE checks its READY members (R52). The CLS acts first, so a grant and not an activation takes the last ready
oven above a reserve: DESIGN CHOICE (log 9), as R52 leaves open which of the two is the first to act. -/
def Site.setMode (m : Mode) (st : Site) : Site :=
  if st.env.mode = m then st
  else
    ({ st with env := { st.env with mode := m } } : Site).holding fun e r =>
      ((r.latch .modeChanged).limitCheck e).activationCheck e

/-- The schedule applies (R49). -/
def Env.scheduleApplies (e : Env) : Bool := e.clockValid && !e.schedule.isEmpty

/-- The scheduled mode at a minute of day: the entry with the greatest minute not above it, else the last entry, which
runs on past midnight (R48). -/
def scheduledMode (l : List SchedEntry) (m : Nat) : Option Mode :=
  match (l.filter fun x => decide (x.minute ≤ m)).getLast? with
  | some x => some x.mode
  | none => l.getLast?.map SchedEntry.mode

/-- The mode the schedule gives now, none while it does not apply (R49). -/
def Env.scheduledNow (e : Env) : Option Mode := if e.scheduleApplies then scheduledMode e.schedule e.minuteOfDay else none

/-- Re-application of the schedule (R49). -/
def Site.reapply (st : Site) : Site :=
  if st.env.overridden then st
  else match st.env.scheduledNow with
    | some m => st.setMode m
    | none => st

/-- The entry of the schedule with a minute. -/
def entryAt (l : List SchedEntry) (m : Nat) : Option SchedEntry := l.find? fun x => decide (x.minute = m)

/-- The boundary test of a minute that a tick has raised: an entry of the new minute of day ends the override and gives its
mode (R50). -/
def Site.boundary (st : Site) : Site :=
  if st.env.scheduleApplies then
    match entryAt st.env.schedule st.env.minuteOfDay with
    | some x => ({ st with env := { st.env with overridden := false } } : Site).setMode x.mode
    | none => st
  else st

/-- How many advances by one, at least one, bring the minute of day to `m`: those that a day takes, or, when the 32-bit sum of
site minute and offset wraps before, those up to the wrap and `m` more from minute of day 0 (R43). -/
def Env.advancesTo (e : Env) (m : Nat) : Nat :=
  let day := (m + 1439 - e.minuteOfDay) % 1440 + 1
  let left := 4294967295 - (e.minute + BitVec.ofNat 32 e.offset).toNat
  if day ≤ left then day else left + 1 + m

/-- The nearer of a minute of day already found and an entry's, counted in advances of the site minute. -/
def Env.nearer (e : Env) (best : Option Nat) (x : SchedEntry) : Option Nat :=
  match best with
  | some m => if e.advancesTo x.minute < e.advancesTo m then some x.minute else some m
  | none => some x.minute

/-- The minute of day of the next boundary: that of the entry which the advancing site minute reaches first (R43, R50, R53); none
while the schedule does not apply. -/
def Env.nextBoundary (e : Env) : Option Nat := if e.scheduleApplies then e.schedule.foldl e.nearer none else none

/-- The new site minute is handed to the CLS and then to the UPE (R43), in this order: DESIGN CHOICE (log 49). -/
def Site.handMinute (st : Site) : Site := st.holding fun e r => (r.clsExpiry e).admission e

/-- The minute fraction has passed 59,999: it returns to 0, the site minute rises by one, the expiry is handed on and
the boundary is tested (R43). The CLS and the UPE take the minute, with what it changes, in the mode that was in force, and the
boundary is tested last: DESIGN CHOICE (log 49). -/
def Site.minuteExpiry (st : Site) : Site :=
  (({ st with env := { st.env with fraction := 0, minute := st.env.minute + 1 } } : Site).handMinute).boundary

/-- The next minute expiry reaches a boundary: the schedule applies, and the advanced minute of day is that of an entry
(R50). -/
def Env.boundaryNext (e : Env) : Bool :=
  e.scheduleApplies && (entryAt e.schedule { e with minute := e.minute + 1 }.minuteOfDay).isSome

/-- An entry enters the schedule at its minute's place (R47). -/
def insertSched (x : SchedEntry) : List SchedEntry → List SchedEntry
  | [] => [x]
  | y :: ys => if x.minute < y.minute then x :: y :: ys else y :: insertSched x ys

end Sys2Proof.Machine
end

