-- ==== Sys2Proof/Machine/Ptr.lean ====
section
/-!
DEFINITION. The Persistence Tracker's shared operations (chapter 11): the images of 12.4 written and read, the checks
of a restored image (R183, R184, R192), and the steps of GO_LIVE (R185).
-/
namespace Sys2Proof.Machine

/-! ## Images as SAVE_NEXT sends them (12.4) -/

def Profile.image (p : Profile) : List Byte :=
  u8 p.limit ++ flag p.activate ++ u8 p.rate ++ u16 p.interval ++ flag p.link ++ flag p.push

/-- The weights, factors, H, thresholds and credits, in the order of a SETTINGS image. -/
def SoilSettings.image (s : SoilSettings) : List Byte :=
  u8 s.wConvection ++ u8 s.wSteam ++ u8 s.wCombi ++ u8 s.wHold ++ u8 s.defaultFactor ++ u8 s.manualFactor ++ u16 s.reload
    ++ u16 s.t1 ++ u16 s.t2 ++ u16 s.t3 ++ u16 s.t4 ++ u16 s.creditLight ++ u16 s.creditMedium ++ u16 s.creditHeavy

/-- The graces, grant window and lock delay. -/
def CleanSettings.image (c : CleanSettings) : List Byte :=
  u16 c.graceLight ++ u16 c.graceMedium ++ u16 c.graceHeavy ++ u16 c.graceIntensive ++ u8 c.window ++ u16 c.lockDelay

def Env.settingsImage (e : Env) : List Byte :=
  e.profiles.trading.image ++ e.profiles.prep.image ++ e.profiles.closed.image
    ++ (e.reserves.toList.map u8).flatten ++ (e.routes.toList.map fun t => u8 t.code).flatten
    ++ e.soil.image ++ e.clean.image ++ u8 e.clean.arbiter.code ++ u8 e.clean.first.val ++ u8 e.discovery

def SchedEntry.image (x : SchedEntry) : List Byte := u16 x.minute ++ u8 x.mode.code

def scheduleImage (l : List SchedEntry) : List Byte := counted (l.map SchedEntry.image)

/-- The capability's flags byte: bit 0 steam, bit 1 probe. -/
def Capability.flags (c : Capability) : Nat := c.steam.toNat + 2 * c.probe.toNat

def Capability.image (c : Capability) : List Byte :=
  u8 c.tempMin ++ u16 c.tempMax ++ u8 c.flags ++ u8 c.maxStages ++ u8 c.capacity

def Grant.image (g : Grant) : List Byte := u8 g.level.code ++ u32 g.issuedAt.toNat ++ u32 g.sequence

/-- The obligation's flags byte: bit 0 overdue, bit 1 locked. -/
def Obligation.flags (b : Obligation) : Nat := b.overdue.toNat + 2 * b.locked.toNat

def Obligation.image (b : Obligation) : List Byte :=
  u8 b.level.code ++ u32 b.raisedAt.toNat ++ u32 b.deadline.toNat ++ u8 b.state.code ++ u8 b.flags ++ u8 b.aborts
    ++ optional 9 (b.grant.map Grant.image)

def Soil.image (v : Soil) : List Byte := u16 v.score ++ u16 v.residue ++ u16 v.hygiene ++ u8 v.carry

/-- HOST_HOLD: 0 absent, 1 SOFT, 2 HARD. -/
def hostHoldCode : Option Bool → Nat
  | none => 0 | some false => 1 | some true => 2

/-- A pair of recipe id and version: 3 bytes. -/
def pairBytes (p : Nat × Nat) : List Byte := u16 p.1 ++ u8 p.2

def Oven.image (o : Oven) : List Byte :=
  u48 o.serial.toNat ++ u16 o.model ++ u8 o.zone.val ++ u8 o.group.val ++ u8 o.lifecycle.code ++ flag o.served
    ++ optional 6 (o.capability.map Capability.image) ++ firmwareBytes o.firmware ++ o.soil.image
    ++ optional 22 (o.obligation.map Obligation.image) ++ u8 (hostHoldCode o.hostHold) ++ u8 (severityCode o.untracked)
    ++ counted ((heldPairs o.carried).map pairBytes)

def Recipe.image (x : Recipe) : List Byte :=
  u16 x.id ++ u8 x.version ++ u8 x.state.code ++ u8 x.factor ++ [x.mask] ++ u8 x.rank ++ nameBytes x.name
    ++ (x.stages.map Stage.bytes).flatten

/-- The ticket's flags byte: bit 0 repeat, bit 1 cleared by oven. -/
def Ticket.flags (t : Ticket) : Nat := t.repeated.toNat + 2 * t.cleared.toNat

def Ticket.image (t : Ticket) : List Byte :=
  u16 t.number ++ u8 t.slot.val ++ u8 t.cls.val ++ u16 t.code.toNat ++ u8 t.severity.code ++ u8 t.state.code ++ u8 t.origin.code
    ++ u8 t.route.code ++ u8 t.occurrences ++ u8 t.flags ++ u32 t.openedAt.toNat ++ u32 t.lastAt.toNat
    ++ optional 4 (t.resolvedAt.map fun m => u32 m.toNat)

def Member.image (m : Member) : List Byte :=
  u8 m.slot.val ++ u8 m.state.code ++ u8 (deferCode m.defer) ++ u8 (failCode m.fail) ++ u8 m.attempts

def Campaign.image (c : Campaign) : List Byte :=
  u16 c.id ++ u16 c.model ++ firmwareBytes c.firmware ++ u32 c.length ++ u32 c.crc.toNat ++ u8 c.waveSize ++ u8 c.state.code
    ++ counted (c.members.map Member.image)

/-- The body of an index: empty for a vacancy (R181). -/
def Site.image (st : Site) : Index → List Byte
  | .settings => st.env.settingsImage
  | .schedule => scheduleImage st.env.schedule
  | .oven i => ((st.recs.oven i).map Oven.image).getD []
  | .recipe k => ((st.recs.recipe k).map Recipe.image).getD []
  | .ticket k => ((st.recs.ticket k).map Ticket.image).getD []
  | .campaign => (st.recs.campaign.map Campaign.image).getD []

/-- The first DIRTY index (R181). -/
def Persist.firstDirty (p : Persist) : Option Index := Index.all.find? fun ix => p.get ix

/-! ## Reading images: each value with whether it was changed to bring it into range -/

/-- A value read from an image, and whether reading it changed it (R183). -/
structure Read (α : Type) where
  value   : α
  clamped : Bool

/-- A number clamped. -/
def readNum (lo hi v : Nat) : Read Nat := { value := clamp lo hi v, clamped := decide (clamp lo hi v ≠ v) }

/-- A code: one that names nothing is read as `d` and sets the mark (R192). -/
def readCode {α : Type} (f : Nat → Option α) (d : α) (v : Nat) : Read α := { value := (f v).getD d, clamped := (f v).isNone }

/-! ### SETTINGS -/

/-- A yes/no value of a profile: any non-zero one is yes, as SET_PROFILE takes it, and one above 1 sets the mark (R45, R183):
DEDUCED (log 11). -/
def readYes (v : Nat) : Read Bool := { value := decide (v ≠ 0), clamped := decide (1 < v) }

/-- A profile of a SETTINGS image (R45, R54). -/
def profileAt (b : List Byte) (k : Nat) : Read Profile :=
  let l := readNum 0 8 (numAt b k 1)
  let a := readYes (numAt b (k + 1) 1)
  let c := readNum 0 4 (numAt b (k + 2) 1)
  let t := readNum 50 5000 (numAt b (k + 3) 2)
  let k1 := readYes (numAt b (k + 5) 1)
  let p := readYes (numAt b (k + 6) 1)
  { value := { limit := l.value, activate := a.value, rate := c.value, interval := t.value, link := k1.value, push := p.value }
    clamped := l.clamped || a.clamped || c.clamped || t.clamped || k1.clamped || p.clamped }

/-- The soil settings of a SETTINGS image: thresholds clamped in the order T1 to T4 (R93). -/
def soilSettingsAt (b : List Byte) (k : Nat) : Read SoilSettings :=
  let n1 := fun j hi => readNum 0 hi (numAt b (k + j) 1)
  let n2 := fun j => numAt b (k + j) 2
  let h := readNum 60 2880 (n2 6)
  let t1 := readNum 1 65532 (n2 8)
  let t2 := readNum (t1.value + 1) 65533 (n2 10)
  let t3 := readNum (t2.value + 1) 65534 (n2 12)
  let t4 := readNum (t3.value + 1) 65535 (n2 14)
  { value := { wConvection := (n1 0 15).value, wSteam := (n1 1 15).value, wCombi := (n1 2 15).value, wHold := (n1 3 15).value
               defaultFactor := (n1 4 15).value, manualFactor := (n1 5 15).value, reload := h.value
               t1 := t1.value, t2 := t2.value, t3 := t3.value, t4 := t4.value
               creditLight := n2 16, creditMedium := n2 18, creditHeavy := n2 20 }
    clamped := ([0, 1, 2, 3, 4, 5].any fun j => (n1 j 15).clamped) || h.clamped || t1.clamped || t2.clamped || t3.clamped || t4.clamped }

/-- The cleaning settings of a SETTINGS image. An arbiter code naming neither mode is ROTATE: DESIGN CHOICE (log 13). -/
def cleanSettingsAt (b : List Byte) (k : Nat) : Read CleanSettings :=
  let g := fun j => readNum 10 2880 (numAt b (k + j) 2)
  let w := readNum 5 240 (numAt b (k + 8) 1)
  let d := readNum 0 1440 (numAt b (k + 9) 2)
  let a := readCode arbiterOfCode .rotate (numAt b (k + 11) 1)
  let p := readNum 0 23 (numAt b (k + 12) 1)
  { value := { graceLight := (g 0).value, graceMedium := (g 2).value, graceHeavy := (g 4).value, graceIntensive := (g 6).value
               window := w.value, lockDelay := d.value, arbiter := a.value, first := slotClamped p.value }
    clamped := (g 0).clamped || (g 2).clamped || (g 4).clamped || (g 6).clamped || w.clamped || d.clamped || a.clamped || p.clamped }

/-- A SETTINGS image of 93 bytes, read into the settings in force (R105, R124, R142, R184). -/
def Env.readSettings (e : Env) (b : List Byte) : Read Env :=
  let p0 := profileAt b 0
  let p1 := profileAt b 7
  let p2 := profileAt b 14
  let z := Vector.ofFn fun (i : Fin 4) => readNum 0 6 (numAt b (21 + i.val) 1)
  let s := soilSettingsAt b 57
  let c := cleanSettingsAt b 79
  { value := { e with profiles := { trading := p0.value, prep := p1.value, closed := p2.value }
                      reserves := z.map Read.value
                      routes := Vector.ofFn fun (k : Fin 32) => routeOfCode (numAt b (25 + k.val) 1)
                      soil := s.value, clean := c.value, discovery := numAt b 92 1 }
    clamped := p0.clamped || p1.clamped || p2.clamped || z.toList.any Read.clamped
      || ((List.range 32).any fun k => decide (2 < numAt b (25 + k) 1)) || s.clamped || c.clamped }

/-- Hygiene counters above the hygiene reload are clamped down to it, each such slot's index marked (R93). -/
def Recs.clampHygiene (h : Nat) (r : Recs) : Recs :=
  slots.foldl (fun r i =>
    if r.ovenIs i fun o => decide (h < o.soil.hygiene) then
      r.changeOven i fun o => { o with soil := { o.soil with hygiene := h } }
    else r) r

/-! ### SCHEDULE -/

/-- The entries of a SCHEDULE image; none when a mode code names no mode. -/
def readSchedule (b : List Byte) : (n k : Nat) → Option (List (Read SchedEntry))
  | 0, _ => some []
  | n + 1, k =>
    let t := readNum 0 1439 (numAt b k 2)
    match modeOfCode (numAt b (k + 2) 1), readSchedule b n (k + 3) with
    | some m, some xs => some ({ value := { minute := t.value, mode := m }, clamped := t.clamped } :: xs)
    | _, _ => none

/-- No value stands twice in a list. -/
def distinct {α : Type} [DecidableEq α] : List α → Bool
  | [] => true
  | x :: xs => !xs.contains x && distinct xs

/-! ### OVEN -/

def readCapability (b : List Byte) (k : Nat) : Read Capability :=
  let lo := readNum 30 120 (numAt b k 1)
  let hi := readNum 150 300 (numAt b (k + 1) 2)
  let m := readNum 6 12 (numAt b (k + 4) 1)
  let c := readNum 8 40 (numAt b (k + 5) 1)
  { value := { tempMin := lo.value, tempMax := hi.value, steam := bitOf (byteAt b (k + 3)) 0, probe := bitOf (byteAt b (k + 3)) 1
               maxStages := m.value, capacity := c.value }
    clamped := lo.clamped || hi.clamped || m.clamped || c.clamped }

/-- A grant: a level code that names nothing is LIGHT; sequence 0 is read as 1 (log 13). -/
def readGrant (b : List Byte) (k : Nat) : Read Grant :=
  let l := readCode levelOfCode .light (numAt b k 1)
  let n := readNum 1 Config.sequenceMax (numAt b (k + 5) 4)
  { value := { level := l.value, issuedAt := BitVec.ofNat 32 (numAt b (k + 1) 4), sequence := n.value }
    clamped := l.clamped || n.clamped }

/-- An optional part: absent when its presence byte is 0, its bytes then ignored (R192). -/
def readOptional {α : Type} (presence : Nat) (x : Read α) : Read (Option α) :=
  if presence = 0 then { value := none, clamped := false } else { value := some x.value, clamped := x.clamped }

/-- An obligation: its state and its grant each as the image gives them, whether or not they agree (R192; log 13). -/
def readObligation (b : List Byte) (k : Nat) : Read Obligation :=
  let l := readCode levelOfCode .light (numAt b k 1)
  let st := readCode oblStateOfCode .due (numAt b (k + 9) 1)
  let a := readNum 0 2 (numAt b (k + 11) 1)
  let g := readOptional (numAt b (k + 12) 1) (readGrant b (k + 13))
  { value := { level := l.value, raisedAt := BitVec.ofNat 32 (numAt b (k + 1) 4), deadline := BitVec.ofNat 32 (numAt b (k + 5) 4)
               state := st.value, overdue := bitOf (byteAt b (k + 10)) 0, locked := bitOf (byteAt b (k + 10)) 1, aborts := a.value
               grant := g.value }
    clamped := l.clamped || st.clamped || a.clamped || g.clamped }

/-- HOST_HOLD: above 2 is HARD (R192). -/
def readHostHold (v : Nat) : Read (Option Bool) :=
  { value := match v with | 0 => none | 1 => some false | _ => some true, clamped := decide (2 < v) }

/-- The carried pairs of an OVEN image. -/
def carriedAt (b : List Byte) : List (Nat × Nat) :=
  (List.range (numAt b 55 1)).map fun j => (numAt b (56 + 3 * j) 2, numAt b (58 + 3 * j) 1)

/-- A restored carried entry (R89). -/
def restoredEntry (p : Nat × Nat) : Entry := { id := p.1, held := some p.2, wanted := none, state := none, clamped := false }

/-- A carried list from its pairs, in ascending id order (R76). -/
def restoredCarried (ps : List (Nat × Nat)) : List Entry := ps.foldr (fun p l => insertEntry (restoredEntry p) l) []

/-- An OVEN image read: persisted fields clamped, volatile fields at their first values (R23, R89, R105, R124, R142).
The served byte is read from its bit 0 as a flag byte is, so 2 is no, and no value of it sets the clamped mark: DESIGN CHOICE
(log 11), as R23 and R192 clamp a value into its range and R187 reads a flag from its defined bits. -/
def Env.readOven (e : Env) (b : List Byte) : Read Oven :=
  let m := readNum 1 65534 (numAt b 6 2)
  let z := readNum 0 3 (numAt b 8 1)
  let g := readNum 0 7 (numAt b 9 1)
  let l := readCode lifecycleOfCode .rejoining (numAt b 10 1)
  let c := readOptional (numAt b 12 1) (readCapability b 13)
  let r := readNum 0 959 (numAt b 25 2)
  let h := readNum 0 e.soil.reload (numAt b 27 2)
  let q := readNum 0 59 (numAt b 29 1)
  let ob := readOptional (numAt b 30 1) (readObligation b 31)
  let hh := readHostHold (numAt b 53 1)
  { value :=
      { serial := BitVec.ofNat 48 (numAt b 0 6), model := m.value, zone := zoneClamped z.value, group := groupClamped g.value
        lifecycle := l.value, served := bitOf (byteAt b 11) 0, step := none, releaseDue := false, unreachable := false
        activity := .idle, cook := none, capability := c.value, firmware := firmwareAt b 19, retireForced := false
        lastHeard := 0#32, soil := { score := numAt b 23 2, residue := r.value, hygiene := h.value, carry := q.value }
        obligation := ob.value, grantTelegram := .none, revokeOwed := false, hostHold := hh.value, overdueLock := false
        updateHold := false, untracked := severityOfCode (numAt b 54 1), applied := none, mismatch := false
        carried := restoredCarried (carriedAt b), refused := [], target := [], unfit := 0, overflow := 0, clearPending := false
        inFlight := none, missed := 0, tag := none, abortOwed := none }
    clamped := m.clamped || z.clamped || g.clamped || l.clamped || c.clamped || r.clamped || h.clamped || q.clamped || ob.clamped
      || hh.clamped || decide (3 < numAt b 54 1) }

/-- The errors of an OVEN image (R184, R89). -/
def Recs.ovenImageBad (r : Recs) (i : Fin 24) (o : Oven) (pairs : List (Nat × Nat)) : Bool :=
  decide (o.serial = 0#48) || (slots.any fun j => decide (j ≠ i) && r.ovenIs j fun p => decide (p.serial = o.serial))
    || !distinct (pairs.map Prod.fst)
    || (pairs.any fun p => decide (p.2 = 0) || decide (p.1 = 0) || decide (4095 < p.1))
    || (match o.carriedLimit with
        | some k => decide (k < pairs.length)
        | none => !pairs.isEmpty)

/-! ### RECIPE, TICKET, CAMPAIGN -/

/-- A RECIPE image read; none when a stage's mode or end code names nothing (R72, R192). -/
def readRecipe (b : List Byte) : Option (Read Recipe) :=
  let raw := rawStagesAt b 28 ((b.length - 28) / 8)
  let s := readCode recipeStateOfCode .withdrawn (numAt b 3 1)
  let f := readNum 0 15 (numAt b 4 1)
  let name := (b.drop 8).take 20
  (readStages raw).map fun ts =>
    { value := { id := numAt b 0 2, version := numAt b 2 1, name := nameStored (byteAt b 7) name, factor := f.value
                 mask := byteAt b 5, rank := numAt b 6 1, state := s.value, stages := ts }
      clamped := s.clamped || f.clamped || nameClamped (byteAt b 7) name || stagesClamped raw ts }

/-- A record other than the one at slot `k` meets `p`. -/
def Recs.otherRecipe (r : Recs) (k : Fin 128) (p : Recipe → Bool) : Bool := libraryPlaces.any fun j => decide (j ≠ k) && r.recipeIs j p

/-- The errors of a RECIPE image that BAD_VALUE answers (R72, R184). -/
def Recs.recipeImageBad (r : Recs) (k : Fin 128) (x : Recipe) : Bool :=
  decide (x.id = 0) || decide (4095 < x.id) || decide (x.version = 0)
    || (r.otherRecipe k fun y => decide (y.id = x.id) && decide (y.version = x.version))
    || (decide (x.state = .published) && r.otherRecipe k fun y => decide (y.id = x.id) && decide (y.state = .published))
    || (decide (x.state = .draft) && r.otherRecipe k fun y => decide (y.id = x.id) && decide (y.state = .draft))

/-- A part-origin class (R126). -/
def partClass (c : Fin 32) : Bool := decide (28 ≤ c.val)

/-- The severity of a TICKET image: 0 is NOTICE (log 13), above 3 STOP; STOP of a part-origin class is DEGRADED (R142). -/
def readSeverity (cls : Fin 32) (v : Nat) : Read Severity :=
  let s := faultSeverity v
  let s' := if partClass cls ∧ s = .stop then .degraded else s
  { value := s', clamped := decide (v = 0) || decide (3 < v) || decide (s ≠ s') }

/-- A TICKET image read (R142, R192): resolved-at stands when its presence byte says so, whatever the state. A class above 31
is 31 (log 13). -/
def readTicket (b : List Byte) : Read Ticket :=
  let c := readNum 0 31 (numAt b 3 1)
  let cls : Fin 32 := Fin.ofNat 32 c.value
  let code := if partClass cls then 0 else numAt b 4 2
  let v := readSeverity cls (numAt b 6 1)
  let s := readCode ticketStateOfCode .opened (numAt b 7 1)
  let n := readNum 1 255 (numAt b 10 1)
  { value := { number := numAt b 0 2, slot := slotClamped (numAt b 2 1), cls := cls, code := BitVec.ofNat 16 code, severity := v.value
               state := s.value, origin := if partClass cls then .part else .oven, route := routeOfCode (numAt b 9 1)
               occurrences := n.value, repeated := bitOf (byteAt b 11) 0, cleared := bitOf (byteAt b 11) 1
               openedAt := BitVec.ofNat 32 (numAt b 12 4), lastAt := BitVec.ofNat 32 (numAt b 16 4)
               resolvedAt := if numAt b 20 1 ≠ 0 then some (BitVec.ofNat 32 (numAt b 21 4)) else none }
    clamped := c.clamped || decide (code ≠ numAt b 4 2) || v.clamped || s.clamped || decide (2 < numAt b 9 1) || n.clamped }

/-- The errors of a TICKET image (R142, R184). -/
def Recs.ticketImageBad (r : Recs) (k : Fin 64) (slotByte : Nat) (t : Ticket) : Bool :=
  decide (t.number = 0) || decide (23 < slotByte)
    || ticketPlaces.any fun j => decide (j ≠ k) && r.ticketIs j fun u =>
        decide (u.number = t.number)
          || (decide (t.state ≠ .resolved) && decide (u.state ≠ .resolved) && decide (u.slot = t.slot) && decide (u.cls = t.cls))

/-- A member of a CAMPAIGN image; its volatile fields take their first values (R165). A reason that does not fit the state is
kept as read: DESIGN CHOICE (log 13). -/
def readMember (b : List Byte) (k : Nat) : Read Member :=
  let s := readCode memberStateOfCode .queued (numAt b (k + 1) 1)
  let a := readNum 0 (if s.value = .failed then 3 else 2) (numAt b (k + 4) 1)
  { value := { slot := slotClamped (numAt b k 1), state := s.value, defer := deferOfCode (numAt b (k + 2) 1)
               fail := failOfCode (numAt b (k + 3) 1), attempts := a.value, wave := false, beginTurns := 0, repairs := 0, gaps := []
               complete := false, owed := none, timer := none, onLine := false, waits := false }
    clamped := s.clamped || a.clamped || decide (6 < numAt b (k + 2) 1) || decide (6 < numAt b (k + 3) 1) }

/-- A member enters the list at its slot's place (R143). -/
def insertMember (m : Member) : List Member → List Member
  | [] => [m]
  | x :: xs => if m.slot < x.slot then m :: x :: xs else x :: insertMember m xs

/-- A CAMPAIGN image read (R165, R192). -/
def readCampaign (b : List Byte) : Read Campaign :=
  let m := readNum 1 65534 (numAt b 2 2)
  let l := readNum 1 524288 (numAt b 8 4)
  let w := readNum 1 8 (numAt b 16 1)
  let s := readCode campaignStateOfCode .paused (numAt b 17 1)
  let ms := (List.range (numAt b 18 1)).map fun j => readMember b (19 + 5 * j)
  { value := { id := numAt b 0 2, model := m.value, firmware := firmwareAt b 4, length := l.value
               crc := BitVec.ofNat 32 (numAt b 12 4), waveSize := w.value, state := s.value
               members := (ms.map Read.value).foldr insertMember [], phase := .none, cursor := 0, wanted := [], window := []
               repaired := [] }
    clamped := m.clamped || l.clamped || w.clamped || s.clamped || ms.any Read.clamped }

/-- The slot bytes of a CAMPAIGN image. -/
def memberSlotsAt (b : List Byte) : List Nat := (List.range (numAt b 18 1)).map fun j => numAt b (19 + 5 * j) 1

/-! ## RESTORE_PUT (R183) -/

/-- The shape of an image (12.4, R192). -/
def shapeOk (ix : Index) (b : List Byte) : Bool :=
  match ix with
  | .settings => decide (b.length = 93)
  | .schedule => decide (1 ≤ b.length ∧ b.length = 1 + 3 * numAt b 0 1)
  | .oven _ => decide (56 ≤ b.length ∧ b.length = 56 + 3 * numAt b 55 1)
  | .recipe _ => decide (28 ≤ b.length ∧ (b.length - 28) % 8 = 0)
  | .ticket _ => decide (b.length = 25)
  | .campaign => decide (19 ≤ b.length ∧ b.length = 19 + 5 * numAt b 18 1)

/-- The record of an index is removed, or stays vacant (R183). -/
def Recs.vacate (r : Recs) : Index → Recs
  | .oven i => r.putOven i none
  | .recipe k => r.putRecipe k none
  | .ticket k => r.putTicket k none
  | .campaign => { r with campaign := none }
  | .settings | .schedule => r

/-- An accepted image with its clamped mark, or the status that refuses it (R183 check 3, R184). The reasons that an OVEN or TICKET
image gives an oven are derived and told to nobody, so a GRANTED obligation stays: DESIGN CHOICE (log 8). -/
def Site.restoreBody (st : Site) (ix : Index) (b : List Byte) : Except Status (Site × Bool) :=
  match ix with
  | .settings =>
    let x := st.env.readSettings b
    .ok ({ env := x.value, recs := { st.recs with first := x.value.clean.first }.clampHygiene x.value.soil.reload }, x.clamped)
  | .schedule =>
    if Config.scheduleCapacity < numAt b 0 1 then .error .badLength
    else match readSchedule b (numAt b 0 1) 1 with
      | none => .error .badValue
      | some xs =>
        if distinct (xs.map fun x => x.value.minute) then
          let l := (xs.map Read.value).foldr insertSched []
          .ok (({ st with env := { st.env with schedule := l } } : Site).reapply, xs.any Read.clamped)
        else .error .badValue
  | .oven i =>
    let x := st.env.readOven b
    if st.recs.ovenImageBad i x.value (carriedAt b) then .error .badValue
    else .ok (st.modRecs fun r => r.putOven i (some x.value), x.clamped)
  | .recipe k =>
    let n := (b.length - 28) / 8
    if n = 0 ∨ 12 < n then .error .badLength
    else match readRecipe b with
      | none => .error .badValue
      | some x =>
        if st.recs.recipeImageBad k x.value then .error .badValue
        else if (st.recs.putRecipe k none).poolFree < n then .error .noSpace
        else .ok (st.modRecs fun r => r.putRecipe k (some x.value), x.clamped)
  | .ticket k =>
    let x := readTicket b
    if st.recs.ticketImageBad k (numAt b 2 1) x.value then .error .badValue
    else .ok (st.modRecs fun r => r.putTicket k (some x.value), x.clamped)
  | .campaign =>
    if Config.campaignMembers < numAt b 18 1 then .error .badLength
    else
      let x := readCampaign b
      if x.value.id = 0 ∨ distinct (memberSlotsAt b) = false ∨ (memberSlotsAt b).any (fun n => decide (23 < n)) = true then .error .badValue
      else .ok (st.modRecs fun r => { r with campaign := some x.value }, x.clamped)

/-- The index is made CLEAN. -/
def Site.cleanIndex (ix : Index) (st : Site) : Site := st.modRecs fun r => { r with persist := r.persist.clean ix }

/-- An image or a vacancy marker for an index is checked and taken (R183 checks 1 to 3). -/
def Site.restore (st : Site) (ix : Index) (b : List Byte) : Except Status (Site × Bool) :=
  if b.isEmpty then
    if ix = .settings ∨ ix = .schedule then .error .badValue
    else .ok ((st.modRecs fun r => r.vacate ix).cleanIndex ix, false)
  else if shapeOk ix b then (st.restoreBody ix b).map fun p => (p.1.cleanIndex ix, p.2)
  else .error .badLength

/-! ## GO_LIVE (R185) -/

/-- Step 1: tickets and members of free slots go, and the next ticket number is set. -/
def Recs.liveOrphans (r : Recs) : Recs :=
  let r1 := r.dropTickets fun t => (r.oven t.slot).isNone
  let stays (m : Member) : Bool := (r.oven m.slot).isSome
  let r2 := match r1.campaign with
    | some c => if c.members.all stays then r1 else r1.changeCampaign fun c => { c with members := c.members.filter stays }
    | none => r1
  let top := (r2.tickets.toList.map fun t => match t with | some t => t.number | none => 0).foldl max 0
  { r2 with nextTicket := numberAfter top }

/-- Step 2: the targets, each with the loading test that R75 puts at the end of a recomputation, GO_LIVE among its causes:
DEDUCED (log 18). -/
def Recs.liveTargets (e : Env) (r : Recs) : Recs := r.retargetAll e

/-- Step 3: the release test on every record. -/
def Recs.liveReleases (r : Recs) : Recs := libraryPlaces.foldl Recs.releaseAt r

/-- Step 4, the CLS's part (R124): GRANTED becomes DUE, and a locked obligation brings OVERDUE_LOCK. -/
def Recs.liveObligations (r : Recs) : Recs :=
  slots.foldl (fun r i =>
    let r1 := if r.oblIs i .granted then r.changeObl i fun b => { b with state := .due, grant := none } else r
    r1.modOven i fun o => { o with overdueLock := match o.obligation with | some b => b.locked | none => false }) r

/-- Step 4, the UPE's part on one member (R165): among ACTIVATING members of one zone the lowest slot keeps the state. -/
def Recs.liveMember (r : Recs) (m : Member) : Member :=
  match m.state with
  | .transfer | .repair | .verify => { m with state := .queued }
  | .activating =>
    let z := (r.oven m.slot).map Oven.zone
    if slots.any fun j => decide (j < m.slot) && r.activating j && decide ((r.oven j).map Oven.zone = z) then { m with state := .ready }
    else { m with timer := some Config.activationTimeout }
  | _ => m

/-- Step 4, the UPE's part (R165). -/
def Recs.liveMembers (r : Recs) : Recs :=
  match r.campaign with
  | none => r
  | some c =>
    let ms := c.members.map r.liveMember
    let r1 := { r with campaign := some { c with members := ms } }
    let r2 := if (c.members.zip ms).any fun p => p.1.differs p.2 then r1.mark .campaign else r1
    slots.foldl (fun r i => r.modOven i fun o => { o with updateHold := r.activating i }) r2

/-- Step 5: the evaluations (R105). -/
def Recs.liveEvaluations (e : Env) (r : Recs) : Recs := slots.foldl (fun r i => r.evaluateInService e i) r

/-- Step 6, the lifecycle of one record (R23). -/
def Recs.liveLifecycle (r : Recs) (i : Fin 24) : Recs :=
  match r.oven i with
  | none => r
  | some o =>
    match o.lifecycle with
    | .profiling | .loading | .inService | .rejoining | .retiring => r.moveTo i .rejoining (some .capsReq)
    | .addressing => r.setStep i (some .assign)
    | .failed => r

/-- Step 6: lifecycles, then the overdue comparison and the lock test on every obligation, then the finishing test and
admission. The obligations are gone through in slot order, each with both: DESIGN CHOICE (log 7). -/
def Recs.liveLifecycles (e : Env) (r : Recs) : Recs :=
  let r1 := slots.foldl Recs.liveLifecycle r
  let r2 := slots.foldl (fun r i => (r.overdueTest e i).lockTest e i) r1
  r2.finishTest.admissionCore

/-- Steps 1 to 6. -/
def Recs.liveSteps (e : Env) (r : Recs) : Recs :=
  (((((r.liveOrphans).liveTargets e).liveReleases).liveObligations.liveMembers).liveEvaluations e).liveLifecycles e

/-- GO_LIVE: the steps, then the phase becomes LIVE and round 0 starts (R27, R185). -/
def Site.goLive (st : Site) : Site :=
  let e := { st.env with phase := .live }
  { env := e, recs := (st.recs.liveSteps st.env).startRound e true }

/-! ## Resets (R24, R42, R89, R124, R142, R165, R176) -/

/-- A BUS reset on one oven record, less its cook context (R24, R89, R124, R138). A retirement that has proceeded and whose
release is still to fall due keeps its step RELEASE, not yet due: DESIGN CHOICE (log 28). -/
def Oven.busReset (o : Oven) : Oven :=
  let o1 := o.abandonWork
  { o1 with
    missed := 0, unreachable := false, grantTelegram := .none, revokeOwed := false, applied := none, mismatch := false
    abortOwed := none
    obligation := o.obligation.map fun b => if b.state = .granted then { b with state := .due, grant := none } else b
    lifecycle := match o.lifecycle with
      | .inService | .loading | .profiling | .rejoining => .rejoining
      | l => l
    step := match o.lifecycle with
      | .inService | .loading | .profiling | .rejoining => some .capsReq
      | .addressing => some .assign
      | .failed => none
      | .retiring => if o.step = some .release then some .release else none }

/-- A BUS reset on one slot: its index is marked when its lifecycle state or its obligation changed (R24, R124). An obligation
that returns to DUE here meets neither the overdue comparison nor the lock test: DESIGN CHOICE (log 28). -/
def Recs.busResetSlot (e : Env) (r : Recs) (i : Fin 24) : Recs :=
  let r1 := r.closeCook e i
  match r1.oven i with
  | none => r1
  | some o =>
    let n := o.busReset
    let r2 := r1.putOven i (some n)
    if n.lifecycle ≠ o.lifecycle ∨ n.obligation ≠ o.obligation then r2.mark (.oven i) else r2

/-- A BUS reset on one member (R165). No wave is left, so no member keeps its wave flag (R144). -/
def Member.busReset (m : Member) : Member :=
  let m1 := { m with owed := none, wave := false }
  if m.inWave then { m1 with state := .queued, gaps := [] }
  else if m.state = .activating ∧ m.owed = some .activate ∧ !m.onLine then { m1 with state := .ready, timer := none }
  else m1

/-- A BUS reset on the campaign (R165). A member that leaves ACTIVATING may be the last of a CANCELLING campaign, which is
CANCELLED as soon as none is left (R163). CAMPAIGN is marked only when a member's state or deferral reason differs, so not for a
QUEUED wave member, which returns to QUEUED: DESIGN CHOICE (log 28). -/
def Recs.busResetCampaign (r : Recs) : Recs :=
  match r.campaign with
  | none => r
  | some c =>
    let ms := c.members.map Member.busReset
    let r1 := { r with campaign := some { c with members := ms, phase := .none, wanted := [], window := [], repaired := [] } }
    let r2 := if (c.members.zip ms).any fun p => p.1.differs p.2 then r1.mark .campaign else r1
    let r3 := slots.foldl (fun r' i =>
      if r.activating i && !r'.activating i then r'.modOven i fun o => { o with updateHold := false } else r') r2
    if slots.any fun i => r.activating i && !r3.activating i then r3.finishTest else r3

/-- The BUS reset effects of every block, then round 0 in the LIVE phase (R42, R176). -/
def Site.busReset (st : Site) : Site :=
  let st1 := st.holding fun e r =>
    (slots.foldl (Recs.busResetSlot e) { r with discovered := [] }).busResetCampaign.modObm Obm.busReset
  if st.env.live then st1.modRecs fun r => r.startRound st.env true else st1

/-- Power-on values with a reset cause: the stop latches follow the lines as they are sampled (R142, R178). -/
def Site.fullReset (cause : ResetCause) (st : Site) : Site :=
  { env := { Env.reset with cause := cause, held := st.env.held, lines := st.env.lines }
    recs := { Recs.reset with latches := st.env.lines } }

end Sys2Proof.Machine
end

