-- ==== Sys2Proof/Machine/Requests.lean ====
section
/-!
DEFINITION. The Host Port Unit (chapter 10): transactions, the request checks of R169 with the decoding of R186, the
response, and how an owning block takes a request (R168).
-/
namespace Sys2Proof.Machine

/-! ## Taking a request -/

/-- The request code of a host request (R186); 0 for a command that is none. -/
def requestCode : Instr → Byte
  | .admitOven .. => 0x01#8 | .reject .. => 0x02#8 | .clearIgnored => 0x03#8 | .retry .. => 0x04#8 | .setOven .. => 0x05#8
  | .holdOven .. => 0x06#8 | .releaseOven .. => 0x07#8 | .retire .. => 0x08#8 | .readDiscovery => 0x09#8
  | .readIgnored => 0x0A#8 | .readOven .. => 0x0B#8
  | .discoverNow => 0x10#8 | .setSettingDiscovery .. => 0x11#8 | .setSettingSoil .. => 0x11#8 | .setSettingCleaning .. => 0x11#8
  | .setClock .. => 0x18#8 | .setMode .. => 0x19#8 | .clearOverride => 0x1A#8 | .setProfile .. => 0x1B#8 | .setReserve .. => 0x1C#8
  | .scheduleSet .. => 0x1D#8 | .scheduleRemove .. => 0x1E#8 | .scheduleClear => 0x1F#8 | .readSchedule => 0x20#8
  | .readClock => 0x21#8 | .readProfiles => 0x22#8
  | .recipeWrite .. => 0x28#8 | .recipeDiscard .. => 0x29#8 | .recipePublish .. => 0x2A#8 | .recipeWithdraw .. => 0x2B#8
  | .recipeAssign .. => 0x2C#8 | .libraryList .. => 0x2D#8 | .recipeRead .. => 0x2E#8
  | .resync .. => 0x30#8 | .clearRefused .. => 0x31#8 | .readCarried .. => 0x32#8
  | .adjustSoil .. => 0x38#8 | .readSoil .. => 0x39#8 | .readSoilSettings => 0x3A#8
  | .setArbiter .. => 0x40#8 | .extend .. => 0x41#8 | .waive .. => 0x42#8 | .readCleaning => 0x43#8
  | .setRoute .. => 0x48#8 | .ack .. => 0x49#8 | .dispatch .. => 0x4A#8 | .resolve .. => 0x4B#8 | .close .. => 0x4C#8
  | .clearUntracked .. => 0x4D#8 | .listTickets .. => 0x4E#8 | .readHolds .. => 0x4F#8 | .releaseZone .. => 0x50#8
  | .readStops => 0x51#8
  | .campaignDefine .. => 0x58#8 | .addMember .. => 0x59#8 | .removeMember .. => 0x5A#8 | .start => 0x5B#8 | .pause => 0x5C#8
  | .resume => 0x5D#8 | .cancel => 0x5E#8 | .dismiss => 0x5F#8 | .chunkPut .. => 0x60#8 | .readCampaign => 0x61#8
  | .readWanted => 0x62#8 | .readGaps .. => 0x63#8
  | .saveNext => 0x68#8 | .restorePut .. => 0x69#8 | .goLive => 0x6A#8
  | .getInfo => 0x70#8 | .resetFull => 0x71#8 | .resetBus => 0x71#8 | .readAttention => 0x72#8 | .setAttentionEnable .. => 0x73#8
  | _ => 0x00#8

/-- What an owner makes of a request: the site after it and its answer (R168). -/
abbrev Taken := Site × Reply

/-- A refusal: no record changes (R171). -/
def Site.refuse (st : Site) (why : Status) : Taken := (st, Reply.refuse why)

/-- An answer OK with a payload. -/
def Site.ok (st : Site) (payload : List Byte) : Taken := (st, Reply.ok payload)

/-- A request that is refused with NOT_LIVE in the RESTORE phase (R182). -/
def Site.whenLive (st : Site) (f : Taken) : Taken := if st.env.live then f else st.refuse .notLive

/-- A request on an occupied slot: BAD_VALUE above 23, then NOT_FOUND for a free slot (R10, R19). -/
def Site.withOven (st : Site) (slot : Byte) (f : Fin 24 → Oven → Taken) : Taken :=
  match slotOf slot with
  | none => st.refuse .badValue
  | some i =>
    match st.recs.oven i with
    | none => st.refuse .notFound
    | some o => f i o

/-- The response is placed and READY sets (R167, R168). The request leaves the request buffer at this moment, that of a RESET BUS
too: DESIGN CHOICE (log 5). -/
def State.place (c : Instr) (x : Taken) (s : State) : State :=
  { s with
    site := x.1
    port := { s.port with state := .ready, request := none
                          response := some { code := requestCode c, status := x.2.status, payload := x.2.payload } } }

/-- A request write that the port cannot take is dropped (R167). -/
def State.drop (s : State) : State := { s with port := { s.port with overrun := true } }

/-- A host request as a command (log 5): written and taken at one moment in IDLE; taken by its owner in BUSY when it is
the request in the buffer; dropped otherwise. Nothing while RESET_N is held. -/
def State.hostTake (c : Instr) (owner : Site → Taken) (s : State) : State :=
  if s.site.env.held then s
  else
    match s.port.state with
    | .idle => s.place c (owner s.site)
    | .busy => if s.port.request = some c then s.place c (owner s.site) else s.drop
    | .ready => s.drop

/-! ## The checks of R169 and the decoding of R186 -/

/-- The payload shape of a request code: the bytes of the fixed part and of one repeated item, 0 for none. None for a
code that names no request. -/
def requestShape (code : Nat) : Option (Nat × Nat) :=
  match code with
  | 0x01 => some (9, 0) | 0x02 => some (6, 0) | 0x03 => some (0, 0) | 0x04 => some (1, 0) | 0x05 => some (4, 0) | 0x06 => some (2, 0)
  | 0x07 => some (1, 0) | 0x08 => some (2, 0) | 0x09 => some (0, 0) | 0x0A => some (0, 0) | 0x0B => some (1, 0)
  | 0x10 => some (0, 0) | 0x11 => some (3, 0)
  | 0x18 => some (6, 0) | 0x19 => some (1, 0) | 0x1A => some (0, 0) | 0x1B => some (4, 0) | 0x1C => some (2, 0) | 0x1D => some (3, 0)
  | 0x1E => some (2, 0) | 0x1F => some (0, 0) | 0x20 => some (0, 0) | 0x21 => some (0, 0) | 0x22 => some (0, 0)
  | 0x28 => some (27, 8) | 0x29 => some (3, 0) | 0x2A => some (3, 0) | 0x2B => some (3, 0) | 0x2C => some (6, 0) | 0x2D => some (4, 0)
  | 0x2E => some (3, 0)
  | 0x30 => some (1, 0) | 0x31 => some (1, 0) | 0x32 => some (1, 0)
  | 0x38 => some (3, 0) | 0x39 => some (1, 0) | 0x3A => some (0, 0)
  | 0x40 => some (2, 0) | 0x41 => some (5, 0) | 0x42 => some (1, 0) | 0x43 => some (0, 0)
  | 0x48 => some (2, 0) | 0x49 => some (2, 0) | 0x4A => some (2, 0) | 0x4B => some (3, 0) | 0x4C => some (2, 0) | 0x4D => some (1, 0)
  | 0x4E => some (4, 0) | 0x4F => some (1, 0) | 0x50 => some (1, 0) | 0x51 => some (0, 0)
  | 0x58 => some (17, 0) | 0x59 => some (1, 0) | 0x5A => some (1, 0) | 0x5B => some (0, 0) | 0x5C => some (0, 0) | 0x5D => some (0, 0)
  | 0x5E => some (0, 0) | 0x5F => some (0, 0) | 0x60 => some (132, 0) | 0x61 => some (0, 0) | 0x62 => some (0, 0) | 0x63 => some (1, 0)
  | 0x68 => some (0, 0) | 0x69 => some (2, 1) | 0x6A => some (0, 0)
  | 0x70 => some (0, 0) | 0x71 => some (1, 0) | 0x72 => some (0, 0) | 0x73 => some (2, 0)
  | _ => none

/-- A payload length that some number of items gives (R169 check 3). -/
def lengthOk (shape : Nat × Nat) (n : Nat) : Bool :=
  if shape.2 = 0 then decide (n = shape.1) else decide (shape.1 ≤ n ∧ (n - shape.1) % shape.2 = 0)

def b16 (p : List Byte) (k : Nat) : BitVec 16 := BitVec.ofNat 16 (numAt p k 2)
def b32 (p : List Byte) (k : Nat) : BitVec 32 := BitVec.ofNat 32 (numAt p k 4)
def serialAt (p : List Byte) (k : Nat) : Serial := BitVec.ofNat 48 (numAt p k 6)

/-- SET_SETTING by its setting code (12.1); none for a code that names no setting. -/
def settingRequest (p : List Byte) : Option Instr :=
  let code := (byteAt p 0).toNat
  if code = 0 then some (.setSettingDiscovery (b16 p 1))
  else if code ≤ 0x0E then some (.setSettingSoil (byteAt p 0) (b16 p 1))
  else if code ≤ 0x14 then some (.setSettingCleaning (byteAt p 0) (b16 p 1))
  else none

/-- RESET by its scope (12.1, R176). -/
def resetRequest (scope : Nat) : Option Instr :=
  match scope with
  | 0 => some .resetFull
  | 1 => some .resetBus
  | _ => none

/-- The request of a code that names one, with a payload of its shape; none for a SET_SETTING or RESET operand that
names nothing (R169 check 4, R176, R186). -/
def decodeRequest (code : Nat) (p : List Byte) : Option Instr :=
  match code with
  | 0x01 => some (.admitOven (serialAt p 0) (byteAt p 6) (byteAt p 7) (byteAt p 8))
  | 0x02 => some (.reject (serialAt p 0))
  | 0x03 => some .clearIgnored
  | 0x04 => some (.retry (byteAt p 0))
  | 0x05 => some (.setOven (byteAt p 0) (byteAt p 1) (byteAt p 2) (byteAt p 3))
  | 0x06 => some (.holdOven (byteAt p 0) (byteAt p 1))
  | 0x07 => some (.releaseOven (byteAt p 0))
  | 0x08 => some (.retire (byteAt p 0) (byteAt p 1))
  | 0x09 => some .readDiscovery
  | 0x0A => some .readIgnored
  | 0x0B => some (.readOven (byteAt p 0))
  | 0x10 => some .discoverNow
  | 0x11 => settingRequest p
  | 0x18 => some (.setClock (b32 p 0) (b16 p 4))
  | 0x19 => some (.setMode (byteAt p 0))
  | 0x1A => some .clearOverride
  | 0x1B => some (.setProfile (byteAt p 0) (byteAt p 1) (b16 p 2))
  | 0x1C => some (.setReserve (byteAt p 0) (byteAt p 1))
  | 0x1D => some (.scheduleSet (b16 p 0) (byteAt p 2))
  | 0x1E => some (.scheduleRemove (b16 p 0))
  | 0x1F => some .scheduleClear
  | 0x20 => some .readSchedule
  | 0x21 => some .readClock
  | 0x22 => some .readProfiles
  | 0x28 => some (.recipeWrite (b16 p 0) (byteAt p 2) (byteAt p 3) (byteAt p 4) (byteAt p 5) (byteAt p 6) ((p.drop 7).take 20)
      (rawStagesAt p 27 ((p.length - 27) / 8)))
  | 0x29 => some (.recipeDiscard (b16 p 0) (byteAt p 2))
  | 0x2A => some (.recipePublish (b16 p 0) (byteAt p 2))
  | 0x2B => some (.recipeWithdraw (b16 p 0) (byteAt p 2))
  | 0x2C => some (.recipeAssign (b16 p 0) (byteAt p 2) (byteAt p 3) (byteAt p 4) (byteAt p 5))
  | 0x2D => some (.libraryList (b16 p 0) (byteAt p 2) (byteAt p 3))
  | 0x2E => some (.recipeRead (b16 p 0) (byteAt p 2))
  | 0x30 => some (.resync (byteAt p 0))
  | 0x31 => some (.clearRefused (byteAt p 0))
  | 0x32 => some (.readCarried (byteAt p 0))
  | 0x38 => some (.adjustSoil (byteAt p 0) (b16 p 1))
  | 0x39 => some (.readSoil (byteAt p 0))
  | 0x3A => some .readSoilSettings
  | 0x40 => some (.setArbiter (byteAt p 0) (byteAt p 1))
  | 0x41 => some (.extend (byteAt p 0) (b32 p 1))
  | 0x42 => some (.waive (byteAt p 0))
  | 0x43 => some .readCleaning
  | 0x48 => some (.setRoute (byteAt p 0) (byteAt p 1))
  | 0x49 => some (.ack (b16 p 0))
  | 0x4A => some (.dispatch (b16 p 0))
  | 0x4B => some (.resolve (b16 p 0) (byteAt p 2))
  | 0x4C => some (.close (b16 p 0))
  | 0x4D => some (.clearUntracked (byteAt p 0))
  | 0x4E => some (.listTickets (b16 p 0) (byteAt p 2) (byteAt p 3))
  | 0x4F => some (.readHolds (byteAt p 0))
  | 0x50 => some (.releaseZone (byteAt p 0))
  | 0x51 => some .readStops
  | 0x58 => some (.campaignDefine (b16 p 0) (b16 p 2) (firmwareAt p 4) (b32 p 8) (b32 p 12) (byteAt p 16))
  | 0x59 => some (.addMember (byteAt p 0))
  | 0x5A => some (.removeMember (byteAt p 0))
  | 0x5B => some .start
  | 0x5C => some .pause
  | 0x5D => some .resume
  | 0x5E => some .cancel
  | 0x5F => some .dismiss
  | 0x60 => some (.chunkPut (b16 p 0) (b16 p 2) (p.drop 4))
  | 0x61 => some .readCampaign
  | 0x62 => some .readWanted
  | 0x63 => some (.readGaps (byteAt p 0))
  | 0x68 => some .saveNext
  | 0x69 => some (.restorePut (byteAt p 0) (byteAt p 1) (p.drop 2))
  | 0x6A => some .goLive
  | 0x70 => some .getInfo
  | 0x71 => resetRequest (byteAt p 0).toNat
  | 0x72 => some .readAttention
  | 0x73 => some (.setAttentionEnable (b16 p 0))
  | _ => none

/-- The payload of a request frame that passes check 1 of R169: its length field at most 512, the frame complete, its
CRC-16 right. Bytes after a complete frame are ignored (R166). -/
def requestPayload (frame : List Byte) : Option (List Byte) :=
  let n := numAt frame 1 2
  if 3 ≤ frame.length ∧ n ≤ Config.payloadLimit ∧ 5 + n ≤ frame.length
      ∧ (frame.drop (3 + n)).take 2 = crc16Bytes (frame.take (3 + n))
  then some ((frame.drop 3).take n) else none

/-- The checks of R169, in order: the request, or the status that the HPU answers. -/
def checkFrame (frame : List Byte) : Except Status Instr :=
  match requestPayload frame with
  | none => .error .frameError
  | some p =>
    match requestShape (byteAt frame 0).toNat with
    | none => .error .unknownRequest
    | some shape =>
      if lengthOk shape p.length then
        match decodeRequest (byteAt frame 0).toNat p with
        | some i => .ok i
        | none => .error .badValue
      else .error .badLength

/-! ## Transactions (R166, R167, R169, R170) -/

/-- A response in the bytes that a response read shifts out (12.1, R170). -/
def Response.bytes (x : Response) : List Byte :=
  let covered := [x.code, x.status.code] ++ u16 x.payload.length ++ x.payload
  covered ++ crc16Bytes covered

/-- What the part shifts out: the status byte, then `n` bytes of `out`, zeros beyond its end. -/
def State.shiftOut (s : State) (out : List Byte) (n : Nat) : State :=
  { s with port := { s.port with shifted := s.statusByte :: padTo n out } }

/-- A request write of a whole frame: checked in IDLE and then held for its owner, or answered by the HPU; dropped in
BUSY and READY (R167, R169). -/
def State.writeRequest (frame : List Byte) (s : State) : State :=
  let s1 := s.shiftOut [] (frame.length - 1)
  match s.port.state with
  | .idle =>
    match checkFrame frame with
    | .ok i => { s1 with port := { s1.port with state := .busy, request := some i } }
    | .error why =>
      { s1 with port := { s1.port with state := .ready, response := some { code := byteAt frame 0, status := why, payload := [] } } }
  | .busy => s1.drop
  | .ready => s1.drop

/-- A response read of `n` bytes after the status byte: a read that reaches the last CRC byte frees the buffer and clears
OVERRUN (R167, R170). -/
def State.readResponse (n : Nat) (s : State) : State :=
  match s.port.state, s.port.response with
  | .ready, some x =>
    let s1 := s.shiftOut x.bytes n
    if x.bytes.length ≤ n then { s1 with port := { s1.port with state := .idle, response := none, overrun := false } } else s1
  | _, _ => s.shiftOut [] n

/-- A whole transaction, given the bytes shifted in: none completed, a status read, a response read or a request write
(R166). Nothing while RESET_N is held (R177). The bytes that arrive after the release of RESET_N are taken by R166 as those of any
transaction: DESIGN CHOICE (log 33). -/
def State.transact (bytes : List Byte) (s : State) : State :=
  if s.site.env.held then s
  else
    match bytes with
    | [] => s
    | [_] => s.shiftOut [] 0
    | first :: rest => if first = Config.readCommand then s.readResponse rest.length else s.writeRequest bytes

/-- The commands whose arms take a request from the buffer: every host request but a transaction. -/
def State.buffered (s : State) : Option Instr := if s.port.state = .busy then s.port.request else none

end Sys2Proof.Machine
end

