-- ==== Sys2Proof/Machine/CampaignRequests.lean ====
section
/-!
DEFINITION. The campaign requests (chapter 9): what the UPE makes of each, and the meaning of its row.
-/
namespace Sys2Proof.Machine

/-! ## Owners -/

/-- A request on the present campaign: NOT_LIVE, then NOT_FOUND without one (R147). -/
def Site.withCampaign (st : Site) (f : Campaign → Taken) : Taken :=
  st.whenLive <|
    match st.recs.campaign with
    | none => st.refuse .notFound
    | some c => f c

/-- CAMPAIGN_DEFINE (R147). -/
def Site.campaignDefine (id model : BitVec 16) (firmware : Firmware) (length crc : BitVec 32) (waveSize : Byte)
    (st : Site) : Taken :=
  st.whenLive <|
    if st.recs.campaign.isSome then st.refuse .inUse
    else if id = 0#16 then st.refuse .badValue
    else
      let c : Campaign :=
        { id := id.toNat, model := modelClamped model.toNat, firmware := firmware, length := clamp 1 524288 length.toNat, crc := crc
          waveSize := clamp 1 8 waveSize.toNat, state := .opened, members := [], phase := .none, cursor := 0, wanted := []
          window := [], repaired := [] }
      (st.modRecs fun r => { r with campaign := some c }.mark .campaign).ok
        (u16 c.id ++ u16 c.model ++ firmwareBytes c.firmware ++ u32 c.length ++ u32 c.crc.toNat ++ u8 c.waveSize ++ u16 c.chunks)

/-- The campaign's state lets members be added and removed (R147). -/
def Campaign.editable (c : Campaign) : Bool :=
  decide (c.state = .opened) || decide (c.state = .running) || decide (c.state = .paused)

/-- A member as ADD_MEMBER makes it (R147). -/
def newMember (i : Fin 24) : Member :=
  { slot := i, state := .queued, defer := none, fail := none, attempts := 0, wave := false, beginTurns := 0, repairs := 0, gaps := []
    complete := false, owed := none, timer := none, onLine := false, waits := false }

/-- ADD_MEMBER (R147). -/
def Site.addMember (slot : Byte) (st : Site) : Taken :=
  st.withCampaign fun c =>
    if !c.editable then st.refuse .wrongState
    else
      st.withOven slot fun i _ =>
        if (c.member i).isSome then st.refuse .inUse
        else
          (st.holding fun e r =>
            (r.changeCampaign fun c => { c with members := insertMember (newMember i) c.members }).admission e).ok []

/-- The oven of a member may hold part of the image (R147). -/
def Member.owesAbort (m : Member) : Bool :=
  m.wave || decide (m.state = .transfer) || decide (m.state = .repair) || decide (m.state = .verify) || decide (m.state = .ready)

/-- The member that a slot byte names: none above 23. -/
def Campaign.memberAt (c : Campaign) (slot : Byte) : Option Member := (slotOf slot).bind c.member

/-- REMOVE_MEMBER (R147). -/
def Site.removeMemberRequest (slot : Byte) (st : Site) : Taken :=
  st.withCampaign fun c =>
    if !c.editable then st.refuse .wrongState
    else
      match c.memberAt slot with
      | none => st.refuse .notFound
      | some m =>
        if m.state = .activating then st.refuse .wrongState
        else
          (st.holding fun e r =>
            let r1 := if m.owesAbort then r.oweAbort m.slot else r
            ((r1.removeMember m.slot).waveEnd e).finishTest).ok []

/-- START (R148). -/
def Site.start (st : Site) : Taken :=
  st.withCampaign fun c =>
    if c.state = .opened then (st.holding fun e r => (r.setCampaignState .running).admission e).ok [] else st.refuse .wrongState

/-- PAUSE (R148, R155). -/
def Site.pause (st : Site) : Taken :=
  st.withCampaign fun c =>
    if c.state = .running then
      (st.holding fun _ r => ((r.setCampaignState .paused).modCampaign fun c => { c with wanted := [] }).endStreaming).ok []
    else st.refuse .wrongState

/-- RESUME (R148, R152, R155). -/
def Site.resume (st : Site) : Taken :=
  st.withCampaign fun c =>
    if c.state = .paused then
      (st.holding fun e r => ((((r.setCampaignState .running).endStreaming).topUp).admission e).activationCheck e).ok []
    else st.refuse .wrongState

/-- CANCEL on one member (R148): ACTIVATING, DONE and FAILED members are left, but no wave is left to belong to (R144). -/
def Member.cancelled (m : Member) : Member :=
  match m.state with
  | .activating | .done | .failed => { m with wave := false }
  | .queued | .deferred | .transfer | .repair | .verify | .ready =>
    { m with state := .failed, defer := none, fail := none, wave := false, owed := none }

/-- The slots whose members CANCEL fails with an abort owed (R148). -/
def Campaign.abortSlots (c : Campaign) : List (Fin 24) :=
  (c.members.filter fun m => m.inWave || decide (m.state = .ready)).map Member.slot

/-- CANCEL (R148, R163). -/
def Site.cancel (st : Site) : Taken :=
  st.withCampaign fun c =>
    if c.editable then
      (st.holding fun _ r =>
        let r1 := c.abortSlots.foldl (fun r i => r.oweAbort i) (r.setCampaignState .cancelling)
        (r1.changeCampaign fun c =>
          { c with members := c.members.map Member.cancelled, phase := .none, wanted := [], window := [], repaired := [] }).finishTest).ok []
    else st.refuse .wrongState

/-- The campaign is dismissed with its members. The UPDATE reason is present only while a member is ACTIVATING, so it goes with
the member that was (R135): DEDUCED (log 46). -/
def Recs.dismissCampaign (r : Recs) : Recs :=
  let r1 := slots.foldl (fun r' i => if r.activating i then r'.modOven i fun o => { o with updateHold := false } else r') r
  { r1 with campaign := none }.mark .campaign

/-- DISMISS (R147). -/
def Site.dismiss (st : Site) : Taken :=
  st.withCampaign fun c =>
    if c.state = .finished ∨ c.state = .cancelled then (st.holding fun _ r => r.dismissCampaign).ok []
    else st.refuse .wrongState

/-- A chunk's bytes as stored: those of the last chunk beyond L are zero (R153). -/
def Campaign.chunkBytes (c : Campaign) (index : Nat) (data : List Byte) : List Byte := padTo 128 (data.take (c.length - 128 * index))

/-- CHUNK_PUT (R153). The window keeps its chunks in the order of their CHUNK_PUTs: DESIGN CHOICE (log 11). -/
def Site.chunkPut (id index : BitVec 16) (data : List Byte) (st : Site) : Taken :=
  st.withCampaign fun c =>
    if c.id ≠ id.toNat then st.refuse .notFound
    else if data.length ≠ 128 then st.refuse .badLength
    else if c.wanted.contains index.toNat then
      (st.modRecs fun r => r.modCampaign fun c =>
        { c with wanted := c.wanted.filter fun g => decide (g ≠ index.toNat)
                 window := c.window ++ [{ index := index.toNat, data := c.chunkBytes index.toNat data }] }).ok []
    else st.refuse .notWanted

/-- A list of chunk indices. -/
def indexList (l : List Nat) : List Byte := counted (l.map u16)

/-- A member as READ_CAMPAIGN gives it (R144, R164). -/
def Member.bytes (m : Member) : List Byte :=
  m.image ++ flag m.wave ++ u8 m.beginTurns ++ u8 m.repairs ++ u8 m.gaps.length ++ flag m.complete ++ u8 (owedCode m.owed)
    ++ optional 4 (m.timer.map u32)

/-- READ_CAMPAIGN's body (R164). The repair set, as its size, and the members stand once, at R164's own items, and
the aborts owed of the 24 slots are sent without a count: DESIGN CHOICE (log 11). -/
def Recs.campaignBody (r : Recs) (c : Campaign) : List Byte :=
  u16 c.id ++ u16 c.model ++ firmwareBytes c.firmware ++ u32 c.length ++ u16 c.chunks ++ u32 c.crc.toNat ++ u8 c.waveSize
    ++ u8 c.state.code ++ u8 c.phase.code ++ u16 c.cursor ++ indexList c.wanted ++ indexList (c.window.map Chunk.index)
    ++ u16 c.repaired.length ++ counted (c.members.map Member.bytes)
    ++ slots.flatMap fun i => optional 2 (((r.oven i).bind fun o => o.abortOwed).map u16)

/-- READ_CAMPAIGN (R164). -/
def Site.readCampaign (st : Site) : Taken := st.ok (body ((st.recs.campaign.map st.recs.campaignBody).getD []))

/-- READ_WANTED (R164). -/
def Site.readWanted (st : Site) : Taken :=
  match st.recs.campaign with
  | none => st.refuse .notFound
  | some c => st.ok (u16 c.id ++ u16 c.chunks ++ indexList c.wanted ++ indexList (c.window.map Chunk.index))

/-- READ_GAPS (R164). -/
def Site.readGaps (slot : Byte) (st : Site) : Taken :=
  match slotOf slot with
  | none => st.refuse .badValue
  | some i =>
    match st.recs.campaign, st.recs.member i with
    | some c, some m => st.ok (u16 c.id ++ u8 i.val ++ indexList m.gaps)
    | _, _ => st.refuse .notFound

/-! ## Meanings -/

def execCampaignDefine (id model : BitVec 16) (firmware : Firmware) (length crc : BitVec 32) (waveSize : Byte)
    (s : State) : Host.Outcome State Fault Refusal :=
  .next (s.hostTake (.campaignDefine id model firmware length crc waveSize)
    (Site.campaignDefine id model firmware length crc waveSize))

def execAddMember (slot : Byte) (s : State) : Host.Outcome State Fault Refusal :=
  .next (s.hostTake (.addMember slot) (Site.addMember slot))

def execRemoveMember (slot : Byte) (s : State) : Host.Outcome State Fault Refusal :=
  .next (s.hostTake (.removeMember slot) (Site.removeMemberRequest slot))

def execStart (s : State) : Host.Outcome State Fault Refusal := .next (s.hostTake .start Site.start)

def execPause (s : State) : Host.Outcome State Fault Refusal := .next (s.hostTake .pause Site.pause)

def execResume (s : State) : Host.Outcome State Fault Refusal := .next (s.hostTake .resume Site.resume)

def execCancel (s : State) : Host.Outcome State Fault Refusal := .next (s.hostTake .cancel Site.cancel)

def execDismiss (s : State) : Host.Outcome State Fault Refusal := .next (s.hostTake .dismiss Site.dismiss)

def execChunkPut (id index : BitVec 16) (data : List Byte) (s : State) : Host.Outcome State Fault Refusal :=
  .next (s.hostTake (.chunkPut id index data) (Site.chunkPut id index data))

def execReadCampaign (s : State) : Host.Outcome State Fault Refusal := .next (s.hostTake .readCampaign Site.readCampaign)

def execReadWanted (s : State) : Host.Outcome State Fault Refusal := .next (s.hostTake .readWanted Site.readWanted)

def execReadGaps (slot : Byte) (s : State) : Host.Outcome State Fault Refusal :=
  .next (s.hostTake (.readGaps slot) (Site.readGaps slot))

end Sys2Proof.Machine
end

