-- ==== Sys2Proof/Machine/ClockRequests.lean ====
section
/-!
DEFINITION. The clock and mode requests (chapter 3): what the SCM makes of each, and the meaning of its row.
-/
namespace Sys2Proof.Machine

/-- SET_CLOCK (R44): a jump, handed on as a minute expiry; it reaches no boundary. The expiry is handed on before the schedule is
re-applied: DEDUCED (log 49). -/
def Site.setClock (minute : BitVec 32) (offset : BitVec 16) (st : Site) : Taken :=
  let st1 : Site :=
    { st with env := { st.env with minute := minute, offset := clamp 0 1439 offset.toNat, fraction := 0, clockValid := true } }
  let st2 := st1.handMinute.reapply
  st2.ok (u32 st2.env.minute.toNat ++ u16 st2.env.offset ++ u16 st2.env.minuteOfDay)

/-- SET_MODE (R51). -/
def Site.setModeRequest (mode : Byte) (st : Site) : Taken :=
  match modeOfCode mode.toNat with
  | none => st.refuse .badValue
  | some m => (({ st with env := { st.env with overridden := true } } : Site).setMode m).ok (u8 m.code)

/-- CLEAR_OVERRIDE (R51): with no override in force it changes nothing. -/
def Site.clearOverride (st : Site) : Taken :=
  if st.env.overridden then (({ st with env := { st.env with overridden := false } } : Site).reapply).ok [] else st.ok []

/-- A field of a profile (12.1): what writing it stores, and the value stored as the response gives it; none for a code
that names no field. Field 6 is fixed by the part and handled apart. -/
def Profile.write (p : Profile) (field v : Nat) : Option (Profile × List Byte) :=
  match field with
  | 0 => let x := clamp 0 8 v; some ({ p with limit := x }, u8 x)
  | 1 => let x := decide (v ≠ 0); some ({ p with activate := x }, flag x)
  | 2 => let x := clamp 0 4 v; some ({ p with rate := x }, u8 x)
  | 3 => let x := clamp 50 5000 v; some ({ p with interval := x }, u16 x)
  | 4 => let x := decide (v ≠ 0); some ({ p with link := x }, flag x)
  | 5 => let x := decide (v ≠ 0); some ({ p with push := x }, flag x)
  | _ => none

/-- SET_PROFILE (R45): a write to the current mode's limit brings the limit check and the arbiter, one to its
activation-allowed field the activation check. -/
def Site.setProfile (mode field : Byte) (value : BitVec 16) (st : Site) : Taken :=
  match modeOfCode mode.toNat with
  | none => st.refuse .badValue
  | some m =>
    if field = 6#8 then st.ok (flag (reservesApply m))
    else
      match (st.env.profiles.get m).write field.toNat value.toNat with
      | none => st.refuse .badValue
      | some (p, out) =>
        let st1 := st.changeSettings fun e => { e with profiles := e.profiles.put m p }
        let st2 :=
          if m = st.env.mode ∧ field = 0#8 then st1.holding fun e r => r.limitCheck e
          else if m = st.env.mode ∧ field = 1#8 then st1.holding fun e r => r.activationCheck e
          else st1
        st2.ok out

/-- SET_RESERVE (R46): a reserve that falls brings the arbiter and the activation check. The arbiter runs first: DESIGN CHOICE
(log 9), as R46 and R158 leave open which of the two acts first. -/
def Site.setReserve (zone value : Byte) (st : Site) : Taken :=
  match zoneOf zone with
  | none => st.refuse .badValue
  | some z =>
    let v := clamp 0 6 value.toNat
    let st1 := st.changeSettings fun e => { e with reserves := e.reserves.set z v }
    let st2 := if v < st.env.reserves[z] then st1.holding fun e r => (r.arbiter e).activationCheck e else st1
    st2.ok (u8 v)

/-- The schedule is replaced: its index is marked and it is re-applied (R47). -/
def Site.changeSchedule (l : List SchedEntry) (st : Site) : Site :=
  ({ env := { st.env with schedule := l }, recs := st.recs.mark .schedule } : Site).reapply

/-- SCHEDULE_SET (R47). -/
def Site.scheduleSet (minute : BitVec 16) (mode : Byte) (st : Site) : Taken :=
  match modeOfCode mode.toNat with
  | none => st.refuse .badValue
  | some m =>
    let x : SchedEntry := { minute := clamp 0 1439 minute.toNat, mode := m }
    match entryAt st.env.schedule x.minute with
    | some _ => (st.changeSchedule (st.env.schedule.map fun y => if y.minute = x.minute then x else y)).ok x.image
    | none =>
      if Config.scheduleCapacity ≤ st.env.schedule.length then st.refuse .noSpace
      else (st.changeSchedule (insertSched x st.env.schedule)).ok x.image

/-- SCHEDULE_REMOVE (R47). -/
def Site.scheduleRemove (minute : BitVec 16) (st : Site) : Taken :=
  match entryAt st.env.schedule minute.toNat with
  | none => st.refuse .notFound
  | some _ => (st.changeSchedule (st.env.schedule.filter fun y => decide (y.minute ≠ minute.toNat))).ok []

/-- SCHEDULE_CLEAR (R47). -/
def Site.scheduleClear (st : Site) : Taken := (st.changeSchedule []).ok []

/-- READ_SCHEDULE (R47). -/
def Site.readSchedule (st : Site) : Taken := st.ok (scheduleImage st.env.schedule)

/-- READ_CLOCK (R53). The marks that no scheduled mode applies and that no boundary will be reached are sent as the absence of an
optional value: DESIGN CHOICE (log 10). -/
def Site.readClock (st : Site) : Taken :=
  let e := st.env
  st.ok (u32 e.minute.toNat ++ u32 e.fraction ++ u16 e.offset ++ u16 e.minuteOfDay ++ flag e.clockValid ++ u8 e.mode.code
    ++ flag e.overridden ++ optional 1 (e.scheduledNow.map fun m => u8 m.code) ++ optional 2 (e.nextBoundary.map u16))

/-- READ_PROFILES (R53): each profile with its fixed field, then the reserves, both series without a count: DESIGN CHOICE (log 11). -/
def Site.readProfiles (st : Site) : Taken :=
  let p := st.env.profiles
  st.ok (p.trading.image ++ flag (reservesApply .trading) ++ p.prep.image ++ flag (reservesApply .prep) ++ p.closed.image
    ++ flag (reservesApply .closed) ++ (st.env.reserves.toList.map u8).flatten)

/-! ## Meanings -/

def execSetClock (minute : BitVec 32) (offset : BitVec 16) (s : State) : Host.Outcome State Fault Refusal :=
  .next (s.hostTake (.setClock minute offset) (Site.setClock minute offset))

def execSetMode (mode : Byte) (s : State) : Host.Outcome State Fault Refusal :=
  .next (s.hostTake (.setMode mode) (Site.setModeRequest mode))

def execClearOverride (s : State) : Host.Outcome State Fault Refusal := .next (s.hostTake .clearOverride Site.clearOverride)

def execSetProfile (mode field : Byte) (value : BitVec 16) (s : State) : Host.Outcome State Fault Refusal :=
  .next (s.hostTake (.setProfile mode field value) (Site.setProfile mode field value))

def execSetReserve (zone value : Byte) (s : State) : Host.Outcome State Fault Refusal :=
  .next (s.hostTake (.setReserve zone value) (Site.setReserve zone value))

def execScheduleSet (minute : BitVec 16) (mode : Byte) (s : State) : Host.Outcome State Fault Refusal :=
  .next (s.hostTake (.scheduleSet minute mode) (Site.scheduleSet minute mode))

def execScheduleRemove (minute : BitVec 16) (s : State) : Host.Outcome State Fault Refusal :=
  .next (s.hostTake (.scheduleRemove minute) (Site.scheduleRemove minute))

def execScheduleClear (s : State) : Host.Outcome State Fault Refusal := .next (s.hostTake .scheduleClear Site.scheduleClear)

def execReadSchedule (s : State) : Host.Outcome State Fault Refusal := .next (s.hostTake .readSchedule Site.readSchedule)

def execReadClock (s : State) : Host.Outcome State Fault Refusal := .next (s.hostTake .readClock Site.readClock)

def execReadProfiles (s : State) : Host.Outcome State Fault Refusal := .next (s.hostTake .readProfiles Site.readProfiles)

end Sys2Proof.Machine
end

