-- ==== Sys2Proof/Machine/Events.lean ====
section
/-!
DEFINITION. The events: the clock's, the oven bus's and those at which a count reaches its limit. Each row's meaning
tests that its event can happen in the state, and changes nothing when it cannot (log 4).
-/
namespace Sys2Proof.Machine

/-- An event at the site; none happens while RESET_N is held (R177). -/
def State.event (f : Site → Site) (s : State) : State := if s.site.env.held then s else { s with site := f s.site }

/-- An event of the LIVE phase, with what its changes of hold reasons bring (R136). -/
def Site.live (f : Env → Recs → Recs) (st : Site) : Site := if st.env.live then st.holding f else st

/-- An event of the oven bus, which runs in the LIVE phase only (R26). What it does to hold reasons is told within it. -/
def Site.bus (f : Env → Recs → Recs) (st : Site) : Site := if st.env.live then st.modRecs (f st.env) else st

/-! ## Time events -/

/-- An obligation's deadline is reached (R109), and the arbiter runs (R113); nothing when it is not, or was before. -/
def Recs.becomesOverdue (e : Env) (i : Fin 24) (r : Recs) : Recs :=
  if r.overdueNow e i then (r.overdueTest e i).arbiter e else r

/-- A grant window runs out (R115). -/
def Recs.lapses (e : Env) (i : Fin 24) (r : Recs) : Recs := if r.lapsed e i then (r.endGrant e i).arbiter e else r

/-- The minute expires at a boundary of the schedule (R43, R50). -/
def Site.boundaryExpiry (st : Site) : Site := if st.env.boundaryNext then st.minuteExpiry else st

/-! ## Limit events -/

/-- The next missed turn would make the oven unreachable (R14). -/
def Oven.nextMissUnreachable (o : Oven) : Bool :=
  !o.unreachable && match o.lifecycle with
    | .inService | .retiring => decide (Config.unreachableAt ≤ o.missed + 1)
    | .rejoining => decide (Config.missedLimit ≤ o.missed + 1)
    | .addressing | .profiling | .loading | .failed => false

/-- The next missed turn would fail the commissioning (R9). -/
def Oven.nextMissFails (o : Oven) : Bool :=
  match o.lifecycle with
  | .addressing | .profiling | .loading => decide (Config.missedLimit ≤ o.missed + 1)
  | .inService | .rejoining | .failed | .retiring => false

/-- The missed turn that reaches a limit, when it can be the next (R9, R14). -/
def Recs.missIf (p : Oven → Bool) (e : Env) (i : Fin 24) (r : Recs) : Recs := if r.ovenIs i p then r.missedTurn e i else r

/-- The fifth begin turn of a QUEUED wave member (R150). -/
def Recs.fifthBeginTurn (e : Env) (i : Fin 24) (r : Recs) : Recs :=
  match r.member i with
  | some m => if m.beginTurns + 1 = Config.beginTurnLimit then r.countBeginTurn e i else r
  | none => r

/-- A gap report that takes a member's repair count beyond 16 (R154). -/
def Recs.repairsExceeded (e : Env) (i : Fin 24) (indices : List Nat) (r : Recs) : Recs :=
  match r.campaign, r.member i with
  | some c, some m =>
    if Config.repairLimit < m.repairs + c.missedAgain (indices.filter fun g => decide (g < c.chunks)) then r.updateGap e i c.id indices
    else r
  | _, _ => r

/-- The third abort of a RUNNING obligation (R119). -/
def Recs.thirdAbort (e : Env) (i : Fin 24) (r : Recs) : Recs :=
  match r.obligation i with
  | some b => if b.state = .running ∧ b.aborts = 2 then r.cleanEnded e i .light false else r
  | none => r

/-- The failure reason of a wave flaw (R156). -/
def failOfFlaw : WaveFlaw → FailReason
  | .gaps => .gaps
  | .repairLimit => .repairLimit
  | .crc => .crc
  | .refused => .refused

/-- A member's state lets a flaw arise: REFUSED while it is QUEUED in the wave, GAPS and REPAIR_LIMIT in TRANSFER or REPAIR,
CRC in VERIFY (R150, R154, R156). -/
def Member.canFail (m : Member) : WaveFlaw → Bool
  | .refused => decide (m.state = .queued) && m.wave
  | .gaps => decide (m.state = .transfer) || decide (m.state = .repair)
  | .repairLimit => decide (m.state = .transfer) || decide (m.state = .repair)
  | .crc => decide (m.state = .verify)

/-- The third wave failure of a member, which is final (R156). -/
def Recs.finalFailure (e : Env) (i : Fin 24) (flaw : WaveFlaw) (r : Recs) : Recs :=
  match r.member i with
  | some m => if m.attempts + 1 = Config.attemptLimit ∧ m.canFail flaw = true then r.waveFailure e i (failOfFlaw flaw) else r
  | none => r

/-! ## Bus events -/

/-- ROUND_START: the last round has ended and its interval has elapsed since it started (R27). -/
def Recs.roundStarts (e : Env) (r : Recs) : Recs := if r.roundDue e then r.startRound e false else r

/-- EXCHANGE_START: in a turn, with no HALT to go ahead of it (R29, R41). A turn whose slot was freed ends first (R28). -/
def Recs.exchangeStarts (e : Env) (r : Recs) : Recs :=
  if r.obm.lineFree then
    let r1 := r.settleBus e
    match r1.obm.phase, r1.obm.position with
    | .turn, some i => r1.beginExchange e i
    | _, _ => r1
  else r

/-- What happens to the exchange in progress in a phase of the bus. -/
def Recs.inExchange (phase : BusPhase) (f : Fin 24 → Exchange → Recs) (r : Recs) : Recs :=
  match r.obm.position, r.obm.exchange with
  | some i, some x => if r.obm.phase = phase then f i x else r
  | _, _ => r

/-- ATTEMPT_RETRY: fewer than three attempts have been made and no HALT waits (R31, R41). -/
def Recs.retryAttempt (r : Recs) : Recs :=
  r.inExchange .attemptFailed fun i x =>
    if x.attempts < Config.exchangeAttempts ∧ r.obm.lineFree = true then r.attempt i x else r

/-- REPLY_TIMEOUT and INVALID_REPLY: the attempt in progress fails (R31). -/
def Recs.losesAttempt (r : Recs) : Recs := r.inExchange .listening fun _ _ => r.attemptFails

/-- EXCHANGE_FAILURE: three attempts have failed (R31, R32). -/
def Recs.exchangeFails (e : Env) (r : Recs) : Recs :=
  r.inExchange .attemptFailed fun i x => if Config.exchangeAttempts ≤ x.attempts then r.fail e i x else r

/-- EXCHANGE_SUCCESS: a valid reply ends the exchange; a frame that is none fails the attempt (R31, R32, R190). -/
def Recs.exchangeSucceeds (e : Env) (frame : List Byte) (r : Recs) : Recs :=
  r.inExchange .listening fun i x =>
    match replyPayload i x frame with
    | some p => r.succeed e i x p
    | none => r.attemptFails

/-- DATA_BROADCAST: in the DATA step, with no HALT waiting; a step that has nothing left to send ends (R38, R41). -/
def Recs.dataBroadcasts (e : Env) (r : Recs) : Recs :=
  if r.obm.phase = .data ∧ r.obm.lineFree = true then
    match r.nextChunk with
    | some (c, k) => r.broadcastChunk e c k
    | none => r.afterData e
  else r

/-- SWEEP_START: a sweep is due and no HALT waits; the sweep-now flag clears as it begins, and no reply slot of its window
has been heard (R39, R40, R41). -/
def Recs.sweepStarts (r : Recs) : Recs :=
  if r.obm.phase = .sweepDue ∧ r.obm.lineFree = true then
    r.modObm fun b =>
      { b with phase := .window, sweepNow := false, heard := Vector.replicate 8 false
               line := busFrame broadcast Kind.discover.code (u8 b.seed) }
  else r

/-- DISCOVERY_REPLY: the first frame heard in a reply slot of the window; a later one in that slot is ignored, since the
slot is one where two ovens answered (R3, R40; log 36). -/
def Recs.discoveryHeard (e : Env) (slot : Fin 8) (frame : List Byte) (r : Recs) : Recs :=
  if r.obm.phase = .window ∧ r.obm.heard[slot] = false then
    (r.modObm fun b => { b with heard := b.heard.set slot true }).hearDiscovery e slot frame
  else r

/-- SWEEP_WINDOW_CLOSE: the seed rises by one, modulo 256, and the round ends (R40). -/
def Recs.windowCloses (r : Recs) : Recs :=
  if r.obm.phase = .window then r.modObm fun b => { b with phase := .waiting, seed := (b.seed + 1) % 256 } else r

/-- HALT_SEND: at a moment at which a HALT may go out (R41). -/
def Recs.haltGoesOut (r : Recs) : Recs := if r.obm.mayHalt then r.sendHalt else r

/-! ## Meanings -/

def execMinuteExpiry (s : State) : Host.Outcome State Fault Refusal := .next (s.event Site.minuteExpiry)

/-- SCHEDULE_BOUNDARY: the minute expiry that reaches a boundary, so each boundary is reached once (R50; log 4). -/
def execScheduleBoundary (s : State) : Host.Outcome State Fault Refusal := .next (s.event Site.boundaryExpiry)

def execObligationOverdue (slot : Fin 24) (s : State) : Host.Outcome State Fault Refusal :=
  .next (s.event fun st => st.live fun e r => r.becomesOverdue e slot)

def execObligationLock (slot : Fin 24) (s : State) : Host.Outcome State Fault Refusal :=
  .next (s.event fun st => st.live fun e r => r.lockTest e slot)

def execGrantLapse (slot : Fin 24) (s : State) : Host.Outcome State Fault Refusal :=
  .next (s.event fun st => st.live fun e r => r.lapses e slot)

def execActivationTimeout (slot : Fin 24) (s : State) : Host.Outcome State Fault Refusal :=
  .next (s.event fun st => st.live fun e r => r.activationTimedOut e slot)

def execRoundStart (s : State) : Host.Outcome State Fault Refusal := .next (s.event fun st => st.bus Recs.roundStarts)

def execExchangeStart (s : State) : Host.Outcome State Fault Refusal := .next (s.event fun st => st.bus Recs.exchangeStarts)

def execAttemptRetry (s : State) : Host.Outcome State Fault Refusal := .next (s.event fun st => st.bus fun _ r => r.retryAttempt)

def execReplyTimeout (s : State) : Host.Outcome State Fault Refusal := .next (s.event fun st => st.bus fun _ r => r.losesAttempt)

/-- Every flaw fails the attempt in the same way (R31). -/
def execInvalidReply (_flaw : ReplyFlaw) (s : State) : Host.Outcome State Fault Refusal :=
  .next (s.event fun st => st.bus fun _ r => r.losesAttempt)

def execExchangeFailure (s : State) : Host.Outcome State Fault Refusal := .next (s.event fun st => st.bus Recs.exchangeFails)

def execExchangeSuccess (frame : List Byte) (s : State) : Host.Outcome State Fault Refusal :=
  .next (s.event fun st => st.bus fun e r => r.exchangeSucceeds e frame)

def execUnreachable (slot : Fin 24) (s : State) : Host.Outcome State Fault Refusal :=
  .next (s.event fun st => st.live fun e r => r.missIf Oven.nextMissUnreachable e slot)

def execCommissionFailure (slot : Fin 24) (s : State) : Host.Outcome State Fault Refusal :=
  .next (s.event fun st => st.live fun e r => r.missIf Oven.nextMissFails e slot)

def execBeginTurnsLimit (slot : Fin 24) (s : State) : Host.Outcome State Fault Refusal :=
  .next (s.event fun st => st.live fun e r => r.fifthBeginTurn e slot)

def execRepairLimit (slot : Fin 24) (indices : List Nat) (s : State) : Host.Outcome State Fault Refusal :=
  .next (s.event fun st => st.live fun e r => r.repairsExceeded e slot indices)

def execThirdAbort (slot : Fin 24) (s : State) : Host.Outcome State Fault Refusal :=
  .next (s.event fun st => st.live fun e r => r.thirdAbort e slot)

def execMemberFinalFailure (slot : Fin 24) (flaw : WaveFlaw) (s : State) : Host.Outcome State Fault Refusal :=
  .next (s.event fun st => st.live fun e r => r.finalFailure e slot flaw)

def execDataBroadcast (s : State) : Host.Outcome State Fault Refusal := .next (s.event fun st => st.bus Recs.dataBroadcasts)

def execSweepStart (s : State) : Host.Outcome State Fault Refusal := .next (s.event fun st => st.bus fun _ r => r.sweepStarts)

def execDiscoveryReply (replySlot : Fin 8) (frame : List Byte) (s : State) : Host.Outcome State Fault Refusal :=
  .next (s.event fun st => st.bus fun e r => r.discoveryHeard e replySlot frame)

def execSweepWindowClose (s : State) : Host.Outcome State Fault Refusal := .next (s.event fun st => st.bus fun _ r => r.windowCloses)

def execHaltSend (s : State) : Host.Outcome State Fault Refusal := .next (s.event fun st => st.bus fun _ r => r.haltGoesOut)

/-! ## The tick (R43, R159; log 2) -/

/-- One millisecond of an activation timer. -/
def Member.tick (m : Member) : Member := { m with timer := m.timer.map fun t => t - 1 }

/-- The slots whose activation timer has run out. -/
def Recs.timersOut (r : Recs) : List (Fin 24) :=
  slots.filter fun i => match r.member i with
    | some m => decide (m.timer = some 0)
    | none => false

/-- The activation timers run on the tick; those that run out end their activations (R159, R162). -/
def Recs.tickTimers (e : Env) (r : Recs) : Recs :=
  let r1 := r.modCampaign fun c => { c with members := c.members.map Member.tick }
  r1.timersOut.foldl (fun r i => r.withHolds e fun r => r.activationTimedOut e i) r1

/-- The bus master at a tick: what waits for nothing goes on, and a round whose interval has elapsed starts (R27). -/
def Recs.tickBus (e : Env) (r : Recs) : Recs :=
  let r1 := r.settleBus e
  if r1.roundDue e then r1.startRound e false else r1

/-- The minute fraction rises with the tick; past 59,999 a minute expires (R43). -/
def Site.tickMinute (st : Site) : Site :=
  if 59999 ≤ st.env.fraction then st.minuteExpiry else { st with env := { st.env with fraction := st.env.fraction + 1 } }

/-- One millisecond at the site (R43). -/
def Site.tick (st : Site) : Site :=
  let st1 := (({ st with env := { st.env with tick := st.env.tick + 1 } } : Site).tickMinute)
  st1.bus fun e r => (r.tickTimers e).tickBus e

/-- What the part does on an empty queue: an owner takes the request that waits in the port's buffer (R168), which the
caller runs; otherwise a millisecond passes (log 2, log 5). -/
def State.idle (s : State) : State := s.event Site.tick

end Sys2Proof.Machine
end

