-- ==== Sys2Proof/Machine/FleetRequests.lean ====
section
/-!
DEFINITION. The fleet requests (chapter 1) and the bus requests (chapter 2): what the FLT and the OBM make of each, and
the meaning of its row.
-/
namespace Sys2Proof.Machine

/-! ## Fields in bytes (R187; log 10) -/

/-- The reason set as a mask byte, bits in the order of R135. -/
def Reasons.mask (x : Reasons) : Nat :=
  x.zoneStop.toNat + 2 * x.stopTicket.toNat + 4 * x.untrackedStop.toNat + 8 * x.hostHold.isSome.toNat
    + 16 * x.overdueLock.toNat + 32 * x.update.toNat

/-- A cook context. An unknown version is sent as an absent optional value: DESIGN CHOICE (log 10). -/
def CookCtx.bytes (c : CookCtx) : List Byte :=
  u16 c.recipe ++ optional 1 (c.version.map u8) ++ u32 c.startedAt.toNat ++ flag c.counted

def Discovered.bytes (d : Discovered) : List Byte :=
  u48 d.serial.toNat ++ u16 d.model ++ firmwareBytes d.firmware ++ u8 d.sightings ++ u32 d.firstSeen.toNat

/-- READ_OVEN's body: every field of the R1 table in its order (R5). A carried entry gives its id and held version, what R1's
table persists of it; READ_CARRIED gives it whole. The obligation is the record of R106 without the grant telegram and the revoke
owed, which READ_CLEANING gives. The lifecycle state and the commissioning step stand once, at their places in R1, and the strength
of HOST_HOLD is a byte after the reason set. All four are DESIGN CHOICE (log 10). -/
def Recs.ovenBody (r : Recs) (i : Fin 24) (o : Oven) : List Byte :=
  u48 o.serial.toNat ++ u16 o.model ++ u8 o.zone.val ++ u8 o.group.val ++ u8 o.lifecycle.code ++ flag o.served
    ++ u8 (stepCode o.step) ++ flag o.unreachable ++ u8 o.activity.code ++ optional 9 (o.cook.map CookCtx.bytes)
    ++ optional 6 (o.capability.map Capability.image) ++ firmwareBytes o.firmware ++ flag o.retireForced ++ u32 o.lastHeard.toNat
    ++ o.soil.image ++ optional 22 (o.obligation.map Obligation.image) ++ u8 (r.reasons i).mask ++ u8 (hostHoldCode o.hostHold)
    ++ u8 (severityCode o.untracked) ++ counted (o.carried.map fun c => u16 c.id ++ optional 1 (c.held.map u8))
    ++ counted (o.refused.map pairBytes) ++ u8 o.missed

/-! ## Owners -/

/-- The record that ADMIT creates (R6, R26, R73, R138). Its retire-forced flag starts clear: DESIGN CHOICE (log 42). -/
def Env.newOven (e : Env) (d : Discovered) (zone : Fin 4) (group : Fin 8) : Oven :=
  { serial := d.serial, model := d.model, zone := zone, group := group, lifecycle := .addressing, served := false
    step := some .assign, releaseDue := false, unreachable := false, activity := .idle, cook := none, capability := none
    firmware := d.firmware, retireForced := false, lastHeard := e.minute
    soil := { score := 0, residue := 0, hygiene := e.soil.reload, carry := 0 }
    obligation := none, grantTelegram := .none, revokeOwed := false, hostHold := none, overdueLock := false
    updateHold := false, untracked := none, applied := none, mismatch := false
    carried := [], refused := [], target := [], unfit := 0, overflow := 0, clearPending := false, inFlight := none
    missed := 0, tag := none, abortOwed := none }

/-- ADMIT (R6). In a zone whose stop latch is set the new record has ZONE_STOP from its creation (R135), and nobody is told of it:
DESIGN CHOICE (log 44). -/
def Site.admitOven (serial : Serial) (slot zone group : Byte) (st : Site) : Taken :=
  st.whenLive <|
    match slotOf slot with
    | none => st.refuse .badValue
    | some i =>
      match st.recs.discovered.find? fun d => decide (d.serial = serial) with
      | none => st.refuse .notFound
      | some d =>
        match st.recs.oven i with
        | some _ => st.refuse .inUse
        | none =>
          (st.modRecs fun r =>
            (({ r with discovered := r.discovered.filter fun x => decide (x.serial ≠ serial) } : Recs).putOven i
              (some (st.env.newOven d (zoneClamped zone.toNat) (groupClamped group.toNat)))).mark (.oven i)).ok []

/-- REJECT (R4). -/
def Site.reject (serial : Serial) (st : Site) : Taken :=
  st.whenLive <|
    if (st.recs.discovered.any fun d => decide (d.serial = serial)) = true then
      if Config.discoveryCapacity ≤ st.recs.ignored.length then st.refuse .noSpace
      else
        (st.modRecs fun r =>
          { r with discovered := r.discovered.filter fun x => decide (x.serial ≠ serial), ignored := r.ignored ++ [serial] }).ok []
    else st.refuse .notFound

/-- CLEAR_IGNORED (R4). -/
def Site.clearIgnored (st : Site) : Taken := st.whenLive ((st.modRecs fun r => { r with ignored := [] }).ok [])

/-- RETRY (R10). -/
def Site.retry (slot : Byte) (st : Site) : Taken :=
  st.whenLive <| st.withOven slot fun i o =>
    if o.lifecycle = .failed then
      (st.modRecs fun r => r.changeOven i fun o => { o with lifecycle := .addressing, step := some .assign, missed := 0 }).ok []
    else st.refuse .wrongState

/-- The placement of a slot as a response gives it: zone and group. -/
def Recs.placement (r : Recs) (i : Fin 24) : List Byte :=
  match r.oven i with
  | some o => u8 o.zone.val ++ u8 o.group.val
  | none => [0#8, 0#8]

/-- SET_OVEN (R19). A mask that names the zone counts as a zone change even when the value is the one the oven has: DESIGN
CHOICE (log 37). A mask that names neither field answers with the zone and group as they stand: DESIGN CHOICE (log 10). -/
def Site.setOven (slot mask zone group : Byte) (st : Site) : Taken :=
  st.whenLive <| st.withOven slot fun i _ =>
    let z := bitOf mask 0
    let g := bitOf mask 1
    if !z && !g then st.ok (st.recs.placement i)
    else if z && st.recs.activating i then st.refuse .wrongState
    else
      let st1 := st.holding fun e r =>
        let r1 := r.changeOven i fun o =>
          { o with zone := if z then zoneClamped zone.toNat else o.zone, group := if g then groupClamped group.toNat else o.group }
        if g then r1.retarget e i else r1
      st1.ok (st1.recs.placement i)

/-- HOLD_OVEN (R20): a strength code other than SOFT is taken as HARD. -/
def Site.holdOven (slot strength : Byte) (st : Site) : Taken :=
  st.whenLive <| st.withOven slot fun i _ =>
    (st.holding fun _ r => r.changeOven i fun o => { o with hostHold := some (decide (strength ≠ 1#8)) }).ok []

/-- RELEASE_OVEN (R20). -/
def Site.releaseOven (slot : Byte) (st : Site) : Taken :=
  st.whenLive <| st.withOven slot fun i _ =>
    (st.holding fun _ r => r.changeOven i fun o => { o with hostHold := none }).ok []

/-- RETIRE on an occupied slot (R21). -/
def Recs.retire (e : Env) (i : Fin 24) (o : Oven) (force : Bool) (r : Recs) : Recs :=
  let forced := r.modOven i fun o => { o with retireForced := force }
  if o.lifecycle = .retiring then
    if !force then r
    else if o.step = some .release then forced.vacateSlot e i
    else forced.retireProceed e i
  else if force || decide (o.lifecycle = .addressing) || decide (o.lifecycle = .failed)
      || (decide (o.activity = .idle) && !r.activating i) then forced.retireProceed e i
  else
    let r1 := forced.moveTo i .retiring none
    if o.lifecycle = .inService then r1.leftService e i else r1

/-- RETIRE (R21). -/
def Site.retire (slot force : Byte) (st : Site) : Taken :=
  st.whenLive <| st.withOven slot fun i o => (st.holding fun e r => r.retire e i o (bitOf force 0)).ok []

/-- READ_DISCOVERY (R5). -/
def Site.readDiscovery (st : Site) : Taken := st.ok (counted (st.recs.discovered.map Discovered.bytes))

/-- READ_IGNORED (R5). -/
def Site.readIgnored (st : Site) : Taken := st.ok (counted (st.recs.ignored.map fun s => u48 s.toNat))

/-- READ_OVEN (R5). -/
def Site.readOven (slot : Byte) (st : Site) : Taken :=
  match slotOf slot with
  | none => st.refuse .badValue
  | some i => st.ok (body (((st.recs.oven i).map (st.recs.ovenBody i)).getD []))

/-- DISCOVER_NOW (R39). -/
def Site.discoverNow (st : Site) : Taken :=
  st.whenLive ((st.modRecs fun r => r.modObm fun b => { b with sweepNow := true }).ok [])

/-- SET_SETTING of the discovery interval (R26). -/
def Site.setDiscovery (value : BitVec 16) (st : Site) : Taken :=
  let v := clamp 0 255 value.toNat
  (st.changeSettings fun e => { e with discovery := v }).ok (u8 v)

/-! ## Meanings -/

def execAdmitOven (serial : Serial) (slot zone group : Byte) (s : State) : Host.Outcome State Fault Refusal :=
  .next (s.hostTake (.admitOven serial slot zone group) (Site.admitOven serial slot zone group))

def execReject (serial : Serial) (s : State) : Host.Outcome State Fault Refusal :=
  .next (s.hostTake (.reject serial) (Site.reject serial))

def execClearIgnored (s : State) : Host.Outcome State Fault Refusal := .next (s.hostTake .clearIgnored Site.clearIgnored)

def execRetry (slot : Byte) (s : State) : Host.Outcome State Fault Refusal := .next (s.hostTake (.retry slot) (Site.retry slot))

def execSetOven (slot mask zone group : Byte) (s : State) : Host.Outcome State Fault Refusal :=
  .next (s.hostTake (.setOven slot mask zone group) (Site.setOven slot mask zone group))

def execHoldOven (slot strength : Byte) (s : State) : Host.Outcome State Fault Refusal :=
  .next (s.hostTake (.holdOven slot strength) (Site.holdOven slot strength))

def execReleaseOven (slot : Byte) (s : State) : Host.Outcome State Fault Refusal :=
  .next (s.hostTake (.releaseOven slot) (Site.releaseOven slot))

def execRetire (slot force : Byte) (s : State) : Host.Outcome State Fault Refusal :=
  .next (s.hostTake (.retire slot force) (Site.retire slot force))

def execReadDiscovery (s : State) : Host.Outcome State Fault Refusal := .next (s.hostTake .readDiscovery Site.readDiscovery)

def execReadIgnored (s : State) : Host.Outcome State Fault Refusal := .next (s.hostTake .readIgnored Site.readIgnored)

def execReadOven (slot : Byte) (s : State) : Host.Outcome State Fault Refusal :=
  .next (s.hostTake (.readOven slot) (Site.readOven slot))

def execDiscoverNow (s : State) : Host.Outcome State Fault Refusal := .next (s.hostTake .discoverNow Site.discoverNow)

def execSetSettingDiscovery (value : BitVec 16) (s : State) : Host.Outcome State Fault Refusal :=
  .next (s.hostTake (.setSettingDiscovery value) (Site.setDiscovery value))

end Sys2Proof.Machine
end

