-- ==== Sys2Proof/Machine/LibraryRequests.lean ====
section
/-!
DEFINITION. The library requests (chapter 4) and the distribution requests (chapter 5): what the RLB and the RDE make of
each, and the meaning of its row.
-/
namespace Sys2Proof.Machine

/-! ## Fields in bytes (R70, R71, R187; log 10) -/

/-- A record's header in the order of R70, without its library slot and counts. -/
def Recipe.header (x : Recipe) : List Byte :=
  u16 x.id ++ u8 x.version ++ u8 x.state.code ++ nameBytes x.name ++ u8 x.factor ++ [x.mask] ++ u8 x.rank

/-- A record as LIBRARY_LIST gives it (R70). -/
def Recs.listed (r : Recs) (k : Fin 128) (x : Recipe) : List Byte :=
  u8 k.val ++ x.header ++ u8 x.stages.length ++ u8 (r.carrierCount x.id x.version) ++ u8 (r.cookCount x.id x.version)

/-- The pair of a record. -/
def Recipe.pair (x : Recipe) : Nat × Nat := (x.id, x.version)

/-- A record enters a list ordered by pair. -/
def insertByPair (p : Fin 128 × Recipe) : List (Fin 128 × Recipe) → List (Fin 128 × Recipe)
  | [] => [p]
  | q :: qs => if pairBefore p.2.pair q.2.pair then p :: q :: qs else q :: insertByPair p qs

/-- The records that meet `p`, in ascending order of pair (R70). -/
def Recs.recordsByPair (r : Recs) (p : Recipe → Bool) : List (Fin 128 × Recipe) :=
  ((libraryPlaces.filterMap fun k => (r.recipe k).map fun x => (k, x)).filter fun q => p q.2).foldr insertByPair []

/-- A state filter (12.1): none for a code that names none. -/
def stateFilter (code : Nat) : Option (Recipe → Bool) :=
  match code with
  | 3 => some fun _ => true
  | n => (recipeStateOfCode n).map fun s x => decide (x.state = s)

/-- The pair that follows a pair, as a resume key (R70; log 10). -/
def pairAfter (p : Nat × Nat) : Nat × Nat := if 255 ≤ p.2 then (p.1 + 1, 0) else (p.1, p.2 + 1)

/-! ## Owners of chapter 4 -/

/-- The first checks of R59, without the lookup. -/
def Site.libraryChecks (st : Site) (id : BitVec 16) (version : Byte) (f : Taken) : Taken :=
  st.whenLive <|
    if id = 0#16 ∨ 4095 < id.toNat ∨ version = 0#8 then st.refuse .badValue else f

/-- The checks of R59 for a request on a present record. -/
def Site.withRecipe (st : Site) (id : BitVec 16) (version : Byte) (f : Fin 128 → Recipe → Taken) : Taken :=
  st.libraryChecks id version <|
    match st.recs.findRecipe id.toNat version.toNat with
    | none => st.refuse .notFound
    | some k =>
      match st.recs.recipe k with
      | none => st.refuse .notFound
      | some x => f k x

/-- What the response to a RECIPE_WRITE carries (R61). The header as stored is id, version, state, name, factor, mask and rank:
DESIGN CHOICE (log 10). -/
def Recs.writeAnswer (r : Recs) (k : Fin 128) (x : Recipe) (clamped : Bool) : List Byte :=
  u8 k.val ++ x.header ++ u8 x.stages.length ++ u16 r.poolFree ++ flag clamped

/-- RECIPE_WRITE (R60, R61). -/
def Site.recipeWrite (id : BitVec 16) (version factor mask rank nameLength : Byte) (name : List Byte)
    (stages : List RawStage) (st : Site) : Taken :=
  st.libraryChecks id version <|
    if stages.length = 0 ∨ 12 < stages.length then st.refuse .badLength
    else
      match readStages stages with
      | none => st.refuse .badValue
      | some ts =>
        let r := st.recs
        let x : Recipe :=
          { id := id.toNat, version := version.toNat, name := nameStored nameLength name, factor := clamp 0 15 factor.toNat
            mask := mask, rank := rank.toNat, state := .draft, stages := ts }
        let clamped := nameClamped nameLength name || decide (15 < factor.toNat) || stagesClamped stages ts
        let store (k : Fin 128) : Taken :=
          let st1 := st.modRecs fun r => (r.putRecipe k (some x)).mark (.recipe k)
          st1.ok (st1.recs.writeAnswer k x clamped)
        match r.findRecipe x.id x.version with
        | some k =>
          if r.recipeIs k fun y => decide (y.state = .draft) then
            if (r.putRecipe k none).poolFree < ts.length then st.refuse .noSpace else store k
          else st.refuse .staleVersion
        | none =>
          if (libraryPlaces.any fun k => r.recipeIs k fun y =>
              decide (y.id = x.id) && (decide (y.state = .draft) || decide (x.version ≤ y.version))) = true
          then st.refuse .staleVersion
          else
            match r.freeLibrary with
            | none => st.refuse .noSpace
            | some k => if r.poolFree < ts.length then st.refuse .noSpace else store k

/-- RECIPE_DISCARD (R62). -/
def Site.recipeDiscard (id : BitVec 16) (version : Byte) (st : Site) : Taken :=
  st.withRecipe id version fun k x =>
    if x.state ≠ .draft then st.refuse .wrongState
    else if st.recs.carrierCount x.id x.version ≠ 0 ∨ st.recs.cookCount x.id x.version ≠ 0 then st.refuse .inUse
    else (st.modRecs fun r => r.dropRecipe k).ok []

/-- RECIPE_PUBLISH (R63): the id's PUBLISHED record becomes WITHDRAWN and is tested for release, then every target is
recomputed. The version withdrawn, or the mark that none was, is sent as an optional value: DESIGN CHOICE (log 10). -/
def Site.recipePublish (id : BitVec 16) (version : Byte) (st : Site) : Taken :=
  st.withRecipe id version fun k x =>
    if x.state ≠ .draft then st.refuse .wrongState
    else
      let old := st.recs.findState x.id .published
      let st1 := st.holding fun e r =>
        let r1 := match old with
          | some j => r.changeRecipe j fun y => { y with state := .withdrawn }
          | none => r
        let r2 := r1.changeRecipe k fun y => { y with state := .published }
        let r3 := match old with
          | some j => r2.releaseAt j
          | none => r2
        r3.retargetAll e
      st1.ok (optional 1 ((old.bind st.recs.recipe).map fun y => u8 y.version))

/-- RECIPE_WITHDRAW (R64). -/
def Site.recipeWithdraw (id : BitVec 16) (version : Byte) (st : Site) : Taken :=
  st.withRecipe id version fun k x =>
    if x.state ≠ .published then st.refuse .wrongState
    else
      (st.holding fun e r =>
        ((r.changeRecipe k fun y => { y with state := .withdrawn }).releaseAt k).retargetAll e).ok []

/-- RECIPE_ASSIGN (R65). A mask that names neither field answers with the group mask and rank as they stand: DESIGN CHOICE
(log 10). -/
def Site.recipeAssign (id : BitVec 16) (version fields mask rank : Byte) (st : Site) : Taken :=
  st.withRecipe id version fun k x =>
    if x.state = .withdrawn then st.refuse .wrongState
    else
      let m := bitOf fields 0
      let n := bitOf fields 1
      let y := { x with mask := if m then mask else x.mask, rank := if n then rank.toNat else x.rank }
      if !m && !n then st.ok ([x.mask] ++ u8 x.rank)
      else
        let st1 := st.holding fun e r =>
          let r1 := r.changeRecipe k fun _ => y
          if x.state = .published then r1.retargetAll e else r1
        st1.ok ([y.mask] ++ u8 y.rank)

/-- LIBRARY_LIST (R70). -/
def Site.libraryList (id : BitVec 16) (version filter : Byte) (st : Site) : Taken :=
  match stateFilter filter.toNat with
  | none => st.refuse .badValue
  | some p =>
    let r := st.recs
    let from_ := (r.recordsByPair p).filter fun q => !pairBefore q.2.pair (id.toNat, version.toNat)
    let page := from_.take 15
    let next := if 15 < from_.length then page.getLast?.map fun q => pairBytes (pairAfter q.2.pair) else none
    st.ok (counted (page.map fun q => r.listed q.1 q.2) ++ optional 3 next ++ u8 r.libraryCount ++ u16 r.poolFree)

/-- RECIPE_READ (R71). The stage count is sent among the header fields of R70 and again before the list of stages: DESIGN CHOICE
(log 10). -/
def Site.recipeRead (id : BitVec 16) (version : Byte) (st : Site) : Taken :=
  if 4095 < id.toNat then st.refuse .badValue
  else
    let r := st.recs
    match (r.recordsByPair fun _ => true).filter fun q => !pairBefore q.2.pair (id.toNat, version.toNat) with
    | [] => st.refuse .notFound
    | q :: rest =>
      st.ok (r.listed q.1 q.2 ++ counted (q.2.stages.map Stage.bytes) ++ optional 3 (rest.head?.map fun n => pairBytes n.2.pair))

/-! ## Owners of chapter 5 -/

/-- RESYNC (R87). -/
def Site.resync (slot : Byte) (st : Site) : Taken :=
  st.whenLive <| st.withOven slot fun i o =>
    if o.lifecycle = .loading ∨ o.lifecycle = .inService then (st.modRecs fun r => r.setStep i (some .capsReq)).ok []
    else st.refuse .wrongState

/-- CLEAR_REFUSED (R87): a list that held a pair has changed, so the target is recomputed. -/
def Site.clearRefused (slot : Byte) (st : Site) : Taken :=
  st.whenLive <| st.withOven slot fun i o =>
    if o.refused.isEmpty then st.ok []
    else (st.holding fun e r => (r.modOven i fun o => { o with refused := [] }).retarget e i).ok []

/-- A carried entry as READ_CARRIED gives it (R88). -/
def Entry.bytes (c : Entry) : List Byte :=
  u16 c.id ++ optional 1 (c.held.map u8) ++ optional 1 (c.wanted.map u8) ++ optional 1 (c.state.map fun s => u8 s.code)
    ++ flag c.clamped

/-- Work in flight: kind (load 0, drop 1, their order in R73), version, delivered mark (R88, R187). A drop has no version:
its absence travels as any other's, DESIGN CHOICE (log 11). -/
def InFlight.bytes (f : InFlight) : List Byte := flag f.load.isNone ++ optional 1 (f.load.map u8) ++ flag f.delivered

/-- READ_CARRIED (R88). K is sent as an optional value, whose absence is the mark that the capability is absent: DESIGN CHOICE
(log 10). -/
def Site.readCarried (slot : Byte) (st : Site) : Taken :=
  st.withOven slot fun _ o =>
    st.ok (optional 1 (o.carriedLimit.map u8) ++ counted (o.carried.map Entry.bytes) ++ optional 4 (o.inFlight.map InFlight.bytes)
      ++ flag o.clearPending ++ u32 (digest o.carried).toNat ++ counted (o.refused.map pairBytes) ++ u8 o.unfit ++ u8 o.overflow)

/-! ## Meanings -/

def execRecipeWrite (id : BitVec 16) (version factor mask rank nameLength : Byte) (name : List Byte)
    (stages : List RawStage) (s : State) : Host.Outcome State Fault Refusal :=
  .next (s.hostTake (.recipeWrite id version factor mask rank nameLength name stages)
    (Site.recipeWrite id version factor mask rank nameLength name stages))

def execRecipeDiscard (id : BitVec 16) (version : Byte) (s : State) : Host.Outcome State Fault Refusal :=
  .next (s.hostTake (.recipeDiscard id version) (Site.recipeDiscard id version))

def execRecipePublish (id : BitVec 16) (version : Byte) (s : State) : Host.Outcome State Fault Refusal :=
  .next (s.hostTake (.recipePublish id version) (Site.recipePublish id version))

def execRecipeWithdraw (id : BitVec 16) (version : Byte) (s : State) : Host.Outcome State Fault Refusal :=
  .next (s.hostTake (.recipeWithdraw id version) (Site.recipeWithdraw id version))

def execRecipeAssign (id : BitVec 16) (version fields mask rank : Byte) (s : State) : Host.Outcome State Fault Refusal :=
  .next (s.hostTake (.recipeAssign id version fields mask rank) (Site.recipeAssign id version fields mask rank))

def execLibraryList (id : BitVec 16) (version filter : Byte) (s : State) : Host.Outcome State Fault Refusal :=
  .next (s.hostTake (.libraryList id version filter) (Site.libraryList id version filter))

def execRecipeRead (id : BitVec 16) (version : Byte) (s : State) : Host.Outcome State Fault Refusal :=
  .next (s.hostTake (.recipeRead id version) (Site.recipeRead id version))

def execResync (slot : Byte) (s : State) : Host.Outcome State Fault Refusal :=
  .next (s.hostTake (.resync slot) (Site.resync slot))

def execClearRefused (slot : Byte) (s : State) : Host.Outcome State Fault Refusal :=
  .next (s.hostTake (.clearRefused slot) (Site.clearRefused slot))

def execReadCarried (slot : Byte) (s : State) : Host.Outcome State Fault Refusal :=
  .next (s.hostTake (.readCarried slot) (Site.readCarried slot))

end Sys2Proof.Machine
end

