-- ==== Sys2Proof/WellFormed.lean ====
section
/-!
DEFINITION. Which commands a sender can form: operand lists of the lengths the frames give them, and codes of the
rows that split one request. A command that is not well formed has a meaning all the same (its owner's own checks
answer it); `Instr.wf` says what arises on the wire.
-/
namespace Sys2Proof

/-- A transaction is a request write when a first byte other than READ is followed by at least one more (R166). -/
def isRequestWrite : List Byte → Bool
  | first :: _ :: _ => decide (first ≠ Config.readCommand)
  | _ => false

/-- A bus frame: start, address, kind, length, at most 255 payload bytes, CRC-16 (R25, R189). -/
def fitsFrame (frame : List Byte) : Bool := decide (frame.length ≤ 261)

/-- Well-formed commands: a request write is one (R166); a recipe name has its 20 bytes and the stages fit the payload
limit (R186, R166); a setting code is of the row's block (12.1); chunk data is 128 bytes and an image fits the payload
(R186); a bus frame fits its length byte (R25); a gap report names 1 to 4 indices (R154). -/
def Instr.wf : Instr → Bool
  | .requestWrite shifted => isRequestWrite shifted
  | .requestDropped shifted => isRequestWrite shifted
  | .recipeWrite _ _ _ _ _ _ name stages =>
      decide (name.length = 20) && decide (27 + 8 * stages.length ≤ Config.payloadLimit)
  | .setSettingSoil code _ => decide (1 ≤ code.toNat ∧ code.toNat ≤ 0x0E)
  | .setSettingCleaning code _ => decide (0x0F ≤ code.toNat ∧ code.toNat ≤ 0x14)
  | .chunkPut _ _ data => decide (data.length = 128)
  | .restorePut _ _ body => decide (2 + body.length ≤ Config.payloadLimit)
  | .exchangeSuccess frame => fitsFrame frame
  | .discoveryReply _ frame => fitsFrame frame
  | .repairLimit _ indices => decide (1 ≤ indices.length ∧ indices.length ≤ 4)
  | _ => true

end Sys2Proof
end

