-- ==== Sys2Proof/Machine/PortRequests.lean ====
section
/-!
DEFINITION. The persistence requests (chapter 11), the port requests and the port's transactions (chapter 10), and the
pins and power: the meaning of each row.
-/
namespace Sys2Proof.Machine

/-! ## Owners of chapter 11 -/

/-- SAVE_NEXT's response: kind, index, body, dirty count after the copy (R181, R187). -/
def saveAnswer (kind number : Nat) (b : List Byte) (count : Nat) : List Byte := u8 kind ++ u8 number ++ body b ++ u16 count

/-- SAVE_NEXT (R181). -/
def Site.saveNext (st : Site) : Taken :=
  match st.recs.persist.firstDirty with
  | none => st.ok (saveAnswer 0xFF 0 [] st.recs.persist.count)
  | some ix =>
    let st1 := st.cleanIndex ix
    st1.ok (saveAnswer ix.code.1 ix.code.2 (st.image ix) st1.recs.persist.count)

/-- RESTORE_PUT (R183): its clamped mark is the response's payload. -/
def Site.restorePut (kind number : Byte) (b : List Byte) (st : Site) : Taken :=
  if st.env.live then st.refuse .notRestore
  else
    match indexOf kind.toNat number.toNat with
    | none => st.refuse .badValue
    | some ix =>
      match st.restore ix b with
      | .error why => st.refuse why
      | .ok (st1, clamped) => st1.ok (flag clamped)

/-- GO_LIVE (R185). The dirty count lies within 0..219 and no telegram or image carries it, so the general rule of R187 sends
it in 1 byte: DEDUCED (log 11). -/
def Site.goLiveRequest (st : Site) : Taken :=
  if st.env.live then st.refuse .wrongState
  else
    let st1 := st.goLive
    st1.ok (u8 st1.recs.persist.count)

/-! ## Owners of chapter 10 -/

/-- The table sizes of GET_INFO (R175). -/
def tableSizes : List Nat :=
  [Config.ovenSlots, Config.librarySlots, Config.poolEntries, Config.ticketSlots, Config.campaignMembers, Config.persistedIndices,
   Config.attentionCauses, Config.payloadLimit]

/-- GET_INFO (R175, R186). -/
def Site.getInfo (st : Site) : Taken :=
  let e := st.env
  st.ok (u16 Config.partIdentity ++ u8 Config.revisionCode ++ u8 e.cause.code ++ u8 e.phase.code ++ u8 e.mode.code
    ++ flag e.overridden ++ flag e.clockValid ++ u16 st.recs.persist.count ++ (tableSizes.map u16).flatten)

/-- An attention set in its 2 bytes (12.1). -/
def setBytes (x : BitVec 16) : List Byte := u16 x.toNat

/-- READ_ATTENTION (R174): the latched causes it returns are cleared. -/
def Site.readAttention (st : Site) : Taken :=
  let out := setBytes st.recs.pendingSet ++ setBytes st.recs.latched ++ setBytes st.env.enable
  (st.modRecs fun r => { r with latched := 0#16 }).ok out

/-- SET_ATTENTION_ENABLE (R173). -/
def Site.setAttentionEnable (x : BitVec 16) (st : Site) : Taken :=
  ({ st with env := { st.env with enable := x } } : Site).ok (setBytes x ++ setBytes st.recs.pendingSet)

/-- RESET with scope FULL (R176). -/
def Site.resetFull (st : Site) : Taken := (st.fullReset .hostFull).ok []

/-- RESET with scope BUS (R176). -/
def Site.resetBus (st : Site) : Taken := st.busReset.ok []

/-! ## Pins and power (R139, R140, R177, R178) -/

/-- The part after power-on or an assertion of RESET_N; the queue of waiting commands is the model's own. -/
def State.powerReset (held : Bool) (s : State) : State :=
  { s with port := Port.reset
           site := ({ s.site with env := { s.site.env with held := held } } : Site).fullReset .power }

/-- STOPn changes from deasserted to asserted: its latch sets if it is not set, the zone's ovens gain ZONE_STOP, which
revokes their grants in either phase (R116), and in the LIVE phase HALT is asked for (R139). -/
def Site.stopAsserted (z : Fin 4) (st : Site) : Site :=
  let st1 : Site := { st with env := { st.env with lines := st.env.lines.set z true } }
  if st.recs.latches[z] then st1
  else st1.holding fun e r => ({ r with latches := r.latches.set z true } : Recs).requestHalt e z

/-! ## Meanings -/

def execSaveNext (s : State) : Host.Outcome State Fault Refusal := .next (s.hostTake .saveNext Site.saveNext)

def execRestorePut (kind index : Byte) (body : List Byte) (s : State) : Host.Outcome State Fault Refusal :=
  .next (s.hostTake (.restorePut kind index body) (Site.restorePut kind index body))

def execGoLive (s : State) : Host.Outcome State Fault Refusal := .next (s.hostTake .goLive Site.goLiveRequest)

def execGetInfo (s : State) : Host.Outcome State Fault Refusal := .next (s.hostTake .getInfo Site.getInfo)

/-- RESET FULL when taken also clears OVERRUN (R178). -/
def execResetFull (s : State) : Host.Outcome State Fault Refusal :=
  let s1 := s.hostTake .resetFull Site.resetFull
  let taken := !s.site.env.held && (decide (s.port.state = .idle) || decide (s.buffered = some .resetFull))
  .next (if taken then { s1 with port := { s1.port with overrun := false } } else s1)

def execResetBus (s : State) : Host.Outcome State Fault Refusal := .next (s.hostTake .resetBus Site.resetBus)

def execReadAttention (s : State) : Host.Outcome State Fault Refusal := .next (s.hostTake .readAttention Site.readAttention)

def execSetAttentionEnable (set : BitVec 16) (s : State) : Host.Outcome State Fault Refusal :=
  .next (s.hostTake (.setAttentionEnable set) (Site.setAttentionEnable set))

/-- REQUEST_WRITE: a transaction whose bytes are a request write (R166, R169). -/
def execRequestWrite (shifted : List Byte) (s : State) : Host.Outcome State Fault Refusal := .next (s.transact shifted)

/-- REQUEST_DROPPED: a request write while a request or its response occupies the port (R167); in IDLE none is dropped. -/
def execRequestDropped (shifted : List Byte) (s : State) : Host.Outcome State Fault Refusal :=
  .next (if s.port.state = .idle ∨ isRequestWrite shifted = false then s else s.transact shifted)

/-- RESPONSE_READ: the READ command byte and `further` more bytes (R166, R170). -/
def execResponseRead (further : Nat) (s : State) : Host.Outcome State Fault Refusal :=
  .next (s.transact (Config.readCommand :: List.replicate further 0#8))

/-- POWER_ON (R178): RESET_N is not held after it. -/
def execPowerOn (s : State) : Host.Outcome State Fault Refusal := .next (s.powerReset false)

/-- RESET_N asserted: the part is reset as at power-on and stays in reset (R177). -/
def execResetNAsserted (s : State) : Host.Outcome State Fault Refusal := .next (s.powerReset true)

/-- RESET_N released: the STOP lines are sampled, and the tick and the minute fraction begin (R43, R142, R177). -/
def execResetNReleased (s : State) : Host.Outcome State Fault Refusal :=
  .next (if s.site.env.held then s.powerReset false else s)

/-- STOPn asserted (R139). While RESET_N is held only the level changes: it is sampled at the release (R142). -/
def execStopAsserted (zone : Fin 4) (s : State) : Host.Outcome State Fault Refusal :=
  .next { s with site :=
    if s.site.env.lines[zone] then s.site
    else if s.site.env.held then { s.site with env := { s.site.env with lines := s.site.env.lines.set zone true } }
    else s.site.stopAsserted zone }

/-- STOPn deasserted: the level falls, and the latch stays as it is (R139, R140). -/
def execStopDeasserted (zone : Fin 4) (s : State) : Host.Outcome State Fault Refusal :=
  .next { s with site := { s.site with env := { s.site.env with lines := s.site.env.lines.set zone false } } }

end Sys2Proof.Machine
end

