-- ==== Sys2Proof/Machine/SoilRequests.lean ====
section
/-!
DEFINITION. The soil requests (chapter 6) and the cleaning requests (chapter 7): what the SAU and the CLS make of each,
and the meaning of its row.
-/
namespace Sys2Proof.Machine

/-! ## Owners of chapter 6 -/

/-- A soil setting written (R91, R92): the settings after it and the value stored, in the width of its image field; none
for a code that names no soil setting. -/
def SoilSettings.write (s : SoilSettings) (code v : Nat) : Option (SoilSettings × List Byte) :=
  let low := clamp 0 15 v
  match code with
  | 0x01 => some ({ s with wConvection := low }, u8 low)
  | 0x02 => some ({ s with wSteam := low }, u8 low)
  | 0x03 => some ({ s with wCombi := low }, u8 low)
  | 0x04 => some ({ s with wHold := low }, u8 low)
  | 0x05 => some ({ s with defaultFactor := low }, u8 low)
  | 0x06 => some ({ s with manualFactor := low }, u8 low)
  | 0x07 => let x := clamp 60 2880 v; some ({ s with reload := x }, u16 x)
  | 0x08 => let x := clamp 1 (s.t2 - 1) v; some ({ s with t1 := x }, u16 x)
  | 0x09 => let x := clamp (s.t1 + 1) (s.t3 - 1) v; some ({ s with t2 := x }, u16 x)
  | 0x0A => let x := clamp (s.t2 + 1) (s.t4 - 1) v; some ({ s with t3 := x }, u16 x)
  | 0x0B => let x := clamp (s.t3 + 1) 65535 v; some ({ s with t4 := x }, u16 x)
  | 0x0C => let x := clamp 0 65535 v; some ({ s with creditLight := x }, u16 x)
  | 0x0D => let x := clamp 0 65535 v; some ({ s with creditMedium := x }, u16 x)
  | 0x0E => let x := clamp 0 65535 v; some ({ s with creditHeavy := x }, u16 x)
  | _ => none

/-- SET_SETTING of a soil setting (R91 to R93): H clamps the hygiene counters; a threshold brings an evaluation of every
IN_SERVICE oven in the LIVE phase. -/
def Site.setSoil (code : Byte) (value : BitVec 16) (st : Site) : Taken :=
  match st.env.soil.write code.toNat value.toNat with
  | none => st.refuse .badValue
  | some (x, out) =>
    let st1 := st.changeSettings fun e => { e with soil := x }
    let st2 :=
      if code = 0x07#8 then st1.modRecs fun r => r.clampHygiene x.reload
      else if 0x08 ≤ code.toNat ∧ code.toNat ≤ 0x0B ∧ st.env.live = true then
        st1.holding fun e r => slots.foldl (fun r i => r.evaluateInService e i) r
      else st1
    st2.ok out

/-- A demanded level in bytes: a presence byte and the level. -/
def levelBytes (l : Option Level) : List Byte := optional 1 (l.map fun x => u8 x.code)

/-- ADJUST_SOIL (R103): the score stored, the level that the evaluation found, and a mark that none was made. -/
def Site.adjustSoil (slot : Byte) (score : BitVec 16) (st : Site) : Taken :=
  st.whenLive <| st.withOven slot fun i o =>
    let put := fun r : Recs => r.changeOven i fun o => { o with soil := { o.soil with score := score.toNat } }
    let inService := decide (o.lifecycle = .inService)
    let found := if inService then (put st.recs).demandedAt st.env i else none
    (st.holding fun e r => (put r).evaluateInService e i).ok (u16 score.toNat ++ levelBytes found ++ flag (!inService))

/-- READ_SOIL (R104). -/
def Site.readSoil (slot : Byte) (st : Site) : Taken :=
  st.withOven slot fun i o =>
    st.ok (o.soil.image ++ levelBytes (st.recs.demandedAt st.env i) ++ flag (decide (o.lifecycle = .inService)))

/-- READ_SOIL_SETTINGS (R104). -/
def Site.readSoilSettings (st : Site) : Taken := st.ok st.env.soil.image

/-! ## Owners of chapter 7 -/

/-- A grace, the grant window or the lock delay written (R107). -/
def CleanSettings.write (c : CleanSettings) (code v : Nat) : Option (CleanSettings × List Byte) :=
  let grace := clamp 10 2880 v
  match code with
  | 0x0F => some ({ c with graceLight := grace }, u16 grace)
  | 0x10 => some ({ c with graceMedium := grace }, u16 grace)
  | 0x11 => some ({ c with graceHeavy := grace }, u16 grace)
  | 0x12 => some ({ c with graceIntensive := grace }, u16 grace)
  | 0x13 => let x := clamp 5 240 v; some ({ c with window := x }, u8 x)
  | 0x14 => let x := clamp 0 1440 v; some ({ c with lockDelay := x }, u16 x)
  | _ => none

/-- The lock test on every obligation (R107, R110). -/
def Recs.lockTests (e : Env) (r : Recs) : Recs := slots.foldl (fun r i => r.lockTest e i) r

/-- SET_SETTING of a cleaning setting (R107): a lock delay brings the lock test on every obligation and the arbiter, in
the LIVE phase. -/
def Site.setCleaning (code : Byte) (value : BitVec 16) (st : Site) : Taken :=
  match st.env.clean.write code.toNat value.toNat with
  | none => st.refuse .badValue
  | some (x, out) =>
    let st1 := st.changeSettings fun e => { e with clean := x }
    let st2 := if code = 0x14#8 ∧ st.env.live = true then st1.holding fun e r => (r.lockTests e).arbiter e else st1
    st2.ok out

/-- SET_ARBITER (R107). -/
def Site.setArbiter (mode slot : Byte) (st : Site) : Taken :=
  match arbiterOfCode mode.toNat with
  | none => st.refuse .badValue
  | some m =>
    let p := slotClamped slot.toNat
    let st1 := st.changeSettings fun e => { e with clean := { e.clean with arbiter := m, first := p } }
    (st1.modRecs fun r => ({ r with first := p } : Recs).arbiter st1.env).ok (u8 m.code ++ u8 p.val)

/-- A request on a slot with an obligation: NOT_FOUND for a free slot and for one without (R121, R122). -/
def Site.withObligation (st : Site) (slot : Byte) (f : Fin 24 → Obligation → Taken) : Taken :=
  st.whenLive <| st.withOven slot fun i o =>
    match o.obligation with
    | none => st.refuse .notFound
    | some b => f i b

/-- EXTEND (R121). -/
def Site.extend (slot : Byte) (minute : BitVec 32) (st : Site) : Taken :=
  st.withObligation slot fun i _ =>
    if minute.toNat ≤ st.env.minute.toNat then st.refuse .badValue
    else
      (st.holding fun e r =>
        (((r.changeObl i fun b => { b with deadline := minute, overdue := false, locked := false }).modOven i fun o =>
          { o with overdueLock := false })).arbiter e).ok (u32 minute.toNat)

/-- WAIVE (R122): a grant is revoked whole, with the arbiter run of R116, before the obligation is removed; a grant that this
run makes to the slot goes with the obligation (log 7). -/
def Site.waive (slot : Byte) (st : Site) : Taken :=
  st.withObligation slot fun i b =>
    if b.state = .running then st.refuse .wrongState
    else
      (st.holding fun e r =>
        ((((r.revoke e i).removeObl i).waiveSoil e i).resolvePart e i hygieneClass).arbiter e).ok []

/-- A slot's obligation as READ_CLEANING gives it: every field of R106 and whether it is eligible (R123), after the slot number in
1 byte: DESIGN CHOICE (log 11). -/
def Recs.cleaningEntry (r : Recs) (i : Fin 24) : List (List Byte) :=
  match r.oven i with
  | none => []
  | some o =>
    match o.obligation with
    | none => []
    | some b => [u8 i.val ++ b.image ++ u8 o.grantTelegram.code ++ flag o.revokeOwed ++ flag (r.eligible i)]

/-- READ_CLEANING (R123). It ends with the settings of R107 less the arbiter mode and the first-priority setting, which stand at
its head, and the series of the four zones is sent without a count: DESIGN CHOICE (log 11). More than 18 obligations need more than 512 bytes (log 12). -/
def Site.readCleaning (st : Site) : Taken :=
  let e := st.env
  let r := st.recs
  st.ok (u8 e.clean.arbiter.code ++ u8 e.clean.first.val ++ u8 r.first.val ++ u32 r.sequence ++ u8 e.profile.limit
    ++ u8 r.grantsOut ++ u8 r.cleaningCount
    ++ ((List.finRange 4).flatMap fun z => u8 (r.readyCount z) ++ u8 e.reserves[z] ++ flag (reservesApply e.mode))
    ++ counted (slots.flatMap r.cleaningEntry) ++ e.clean.image)

/-! ## Meanings -/

def execSetSettingSoil (code : Byte) (value : BitVec 16) (s : State) : Host.Outcome State Fault Refusal :=
  .next (s.hostTake (.setSettingSoil code value) (Site.setSoil code value))

def execAdjustSoil (slot : Byte) (score : BitVec 16) (s : State) : Host.Outcome State Fault Refusal :=
  .next (s.hostTake (.adjustSoil slot score) (Site.adjustSoil slot score))

def execReadSoil (slot : Byte) (s : State) : Host.Outcome State Fault Refusal :=
  .next (s.hostTake (.readSoil slot) (Site.readSoil slot))

def execReadSoilSettings (s : State) : Host.Outcome State Fault Refusal :=
  .next (s.hostTake .readSoilSettings Site.readSoilSettings)

def execSetSettingCleaning (code : Byte) (value : BitVec 16) (s : State) : Host.Outcome State Fault Refusal :=
  .next (s.hostTake (.setSettingCleaning code value) (Site.setCleaning code value))

def execSetArbiter (mode slot : Byte) (s : State) : Host.Outcome State Fault Refusal :=
  .next (s.hostTake (.setArbiter mode slot) (Site.setArbiter mode slot))

def execExtend (slot : Byte) (minute : BitVec 32) (s : State) : Host.Outcome State Fault Refusal :=
  .next (s.hostTake (.extend slot minute) (Site.extend slot minute))

def execWaive (slot : Byte) (s : State) : Host.Outcome State Fault Refusal :=
  .next (s.hostTake (.waive slot) (Site.waive slot))

def execReadCleaning (s : State) : Host.Outcome State Fault Refusal := .next (s.hostTake .readCleaning Site.readCleaning)

end Sys2Proof.Machine
end

