-- ==== Sys2Proof/Machine/TicketRequests.lean ====
section
/-!
DEFINITION. The ticket and hold requests (chapter 8): what the THU makes of each, and the meaning of its row.
-/
namespace Sys2Proof.Machine

/-! ## Owners -/

/-- SET_ROUTE (R126). A route code above 3 is BOTH: DESIGN CHOICE (log 11). -/
def Site.setRoute (cls route : Byte) (st : Site) : Taken :=
  if h : cls.toNat < 32 then
    let t := routeOfCode route.toNat
    (st.changeSettings fun e => { e with routes := e.routes.set cls.toNat t h }).ok (u8 t.code)
  else st.refuse .badValue

/-- The shared checks of a request that changes a ticket: NOT_LIVE, BAD_VALUE for number 0, NOT_FOUND (8.4). -/
def Site.withTicket (st : Site) (number : BitVec 16) (f : Fin 64 → Ticket → Taken) : Taken :=
  st.whenLive <|
    if number = 0#16 then st.refuse .badValue
    else
      match st.recs.ticketOf number.toNat with
      | none => st.refuse .notFound
      | some k =>
        match st.recs.ticket k with
        | none => st.refuse .notFound
        | some t => f k t

/-- ACK (R132). -/
def Site.ack (number : BitVec 16) (st : Site) : Taken :=
  st.withTicket number fun k t =>
    if t.state = .opened then
      (st.modRecs fun r => r.changeTicket k fun t => { t with state := .acked, repeated := false }).ok []
    else st.refuse .wrongState

/-- DISPATCH (R132). -/
def Site.dispatch (number : BitVec 16) (st : Site) : Taken :=
  st.withTicket number fun k t =>
    if t.route = .local then st.refuse .wrongRoute
    else if t.state = .opened ∨ t.state = .acked then
      (st.modRecs fun r => r.changeTicket k fun t => { t with state := .dispatched, repeated := false }).ok []
    else st.refuse .wrongState

/-- RESOLVE (R133). -/
def Site.resolve (number : BitVec 16) (force : Byte) (st : Site) : Taken :=
  st.withTicket number fun k t =>
    if t.state = .resolved then st.refuse .wrongState
    else if t.severity = .stop ∧ t.cleared = false ∧ bitOf force 0 = false then st.refuse .wrongState
    else (st.holding fun e r => r.resolveAt e k).ok (u32 st.env.minute.toNat)

/-- CLOSE (R133). -/
def Site.close (number : BitVec 16) (st : Site) : Taken :=
  st.withTicket number fun k t =>
    if t.state = .resolved then (st.modRecs fun r => r.dropTicket k).ok [] else st.refuse .wrongState

/-- CLEAR_UNTRACKED (R134). -/
def Site.clearUntracked (slot : Byte) (st : Site) : Taken :=
  st.whenLive <| st.withOven slot fun i _ =>
    (st.holding fun _ r => r.changeOven i fun o => { o with untracked := none }).ok []

/-- A ticket enters a list ordered by number. -/
def insertByNumber (p : Fin 64 × Ticket) : List (Fin 64 × Ticket) → List (Fin 64 × Ticket)
  | [] => [p]
  | q :: qs => if p.2.number < q.2.number then p :: q :: qs else q :: insertByNumber p qs

/-- The tickets that meet `p`, in ascending number order (R134). -/
def Recs.ticketsByNumber (r : Recs) (p : Ticket → Bool) : List (Fin 64 × Ticket) :=
  ((ticketPlaces.filterMap fun k => (r.ticket k).map fun t => (k, t)).filter fun q => p q.2).foldr insertByNumber []

/-- A ticket filter (12.1): all, one slot, not RESOLVED. -/
def ticketFilter (code : Nat) (slot : Fin 24) : Option (Ticket → Bool) :=
  match code with
  | 0 => some fun _ => true
  | 1 => some fun t => decide (t.slot = slot)
  | 2 => some fun t => decide (t.state ≠ .resolved)
  | _ => none

/-- LIST_TICKETS (R134). Each ticket is given as in its TICKET image, with its two flags packed in one byte: DESIGN CHOICE
(log 11). -/
def Site.listTickets (number : BitVec 16) (filter slot : Byte) (st : Site) : Taken :=
  match slotOf slot with
  | none => st.refuse .badValue
  | some i =>
    match ticketFilter filter.toNat i with
    | none => st.refuse .badValue
    | some p =>
      let from_ := (st.recs.ticketsByNumber p).filter fun q => decide (number.toNat ≤ q.2.number)
      let page := from_.take 16
      let next := if 16 < from_.length then page.getLast?.map fun q => u16 (q.2.number + 1) else none
      let present := ticketPlaces.filterMap st.recs.ticket
      st.ok (counted (page.map fun q => q.2.image ++ u8 q.1.val) ++ optional 2 next ++ u8 present.length
        ++ u8 (present.countP fun t => decide (t.state = .resolved)))

/-- READ_HOLDS (R138). An applied strength that is unknown is sent as an absent optional value: DESIGN CHOICE (log 10). -/
def Site.readHolds (slot : Byte) (st : Site) : Taken :=
  st.withOven slot fun i o =>
    let r := st.recs
    st.ok (u8 (r.reasons i).mask ++ u8 (hostHoldCode o.hostHold) ++ u8 (r.strength i).code
      ++ optional 1 (o.applied.map fun s => u8 s.code) ++ flag o.mismatch ++ u8 (severityCode o.untracked)
      ++ u8 (severityCode (r.standing i)) ++ u8 o.zone.val ++ flag r.latches[o.zone])

/-- RELEASE_ZONE (R140). -/
def Site.releaseZone (zone : Byte) (st : Site) : Taken :=
  match zoneOf zone with
  | none => st.refuse .badValue
  | some z =>
    if st.env.lines[z] then st.refuse .wrongState
    else if st.recs.latches[z] then (st.holding fun _ r => { r with latches := r.latches.set z false }).ok []
    else st.ok []

/-- READ_STOPS (R141). The series of the four zones is sent without a count: DESIGN CHOICE (log 11). -/
def Site.readStops (st : Site) : Taken :=
  st.ok ((List.finRange 4).flatMap fun z =>
    flag st.recs.latches[z] ++ flag st.env.lines[z] ++ u8 (st.recs.countOvens fun _ o => decide (o.zone = z)))

/-! ## Meanings -/

def execSetRoute (cls route : Byte) (s : State) : Host.Outcome State Fault Refusal :=
  .next (s.hostTake (.setRoute cls route) (Site.setRoute cls route))

def execAck (number : BitVec 16) (s : State) : Host.Outcome State Fault Refusal :=
  .next (s.hostTake (.ack number) (Site.ack number))

def execDispatch (number : BitVec 16) (s : State) : Host.Outcome State Fault Refusal :=
  .next (s.hostTake (.dispatch number) (Site.dispatch number))

def execResolve (number : BitVec 16) (force : Byte) (s : State) : Host.Outcome State Fault Refusal :=
  .next (s.hostTake (.resolve number force) (Site.resolve number force))

def execClose (number : BitVec 16) (s : State) : Host.Outcome State Fault Refusal :=
  .next (s.hostTake (.close number) (Site.close number))

def execClearUntracked (slot : Byte) (s : State) : Host.Outcome State Fault Refusal :=
  .next (s.hostTake (.clearUntracked slot) (Site.clearUntracked slot))

def execListTickets (number : BitVec 16) (filter slot : Byte) (s : State) : Host.Outcome State Fault Refusal :=
  .next (s.hostTake (.listTickets number filter slot) (Site.listTickets number filter slot))

def execReadHolds (slot : Byte) (s : State) : Host.Outcome State Fault Refusal :=
  .next (s.hostTake (.readHolds slot) (Site.readHolds slot))

def execReleaseZone (zone : Byte) (s : State) : Host.Outcome State Fault Refusal :=
  .next (s.hostTake (.releaseZone zone) (Site.releaseZone zone))

def execReadStops (s : State) : Host.Outcome State Fault Refusal := .next (s.hostTake .readStops Site.readStops)

end Sys2Proof.Machine
end

