-- ==== Sys2Proof/Machine/Dispatch.lean ====
section
/-!
DEFINITION. The dispatch of commands: one arm for each row of spec/opcode_table.json, each a direct call of its meaning.
-/
namespace Sys2Proof.Machine

/-- The effect of a command on everything but the queue. -/
def exec (i : Instr) (s : State) : Host.Outcome State Fault Refusal :=
  match i with
  | .powerOn => Sys2Proof.Machine.execPowerOn s
  | .resetNAsserted => Sys2Proof.Machine.execResetNAsserted s
  | .stopAsserted zone => Sys2Proof.Machine.execStopAsserted zone s
  | .stopDeasserted zone => Sys2Proof.Machine.execStopDeasserted zone s
  | .requestWrite shifted => Sys2Proof.Machine.execRequestWrite shifted s
  | .requestDropped shifted => Sys2Proof.Machine.execRequestDropped shifted s
  | .responseRead further => Sys2Proof.Machine.execResponseRead further s
  | .admitOven serial slot zone group => Sys2Proof.Machine.execAdmitOven serial slot zone group s
  | .reject serial => Sys2Proof.Machine.execReject serial s
  | .clearIgnored => Sys2Proof.Machine.execClearIgnored s
  | .retry slot => Sys2Proof.Machine.execRetry slot s
  | .setOven slot mask zone group => Sys2Proof.Machine.execSetOven slot mask zone group s
  | .holdOven slot strength => Sys2Proof.Machine.execHoldOven slot strength s
  | .releaseOven slot => Sys2Proof.Machine.execReleaseOven slot s
  | .retire slot force => Sys2Proof.Machine.execRetire slot force s
  | .readDiscovery => Sys2Proof.Machine.execReadDiscovery s
  | .readIgnored => Sys2Proof.Machine.execReadIgnored s
  | .readOven slot => Sys2Proof.Machine.execReadOven slot s
  | .discoverNow => Sys2Proof.Machine.execDiscoverNow s
  | .setSettingDiscovery value => Sys2Proof.Machine.execSetSettingDiscovery value s
  | .setSettingSoil code value => Sys2Proof.Machine.execSetSettingSoil code value s
  | .setSettingCleaning code value => Sys2Proof.Machine.execSetSettingCleaning code value s
  | .setClock minute offset => Sys2Proof.Machine.execSetClock minute offset s
  | .setMode mode => Sys2Proof.Machine.execSetMode mode s
  | .clearOverride => Sys2Proof.Machine.execClearOverride s
  | .setProfile mode field value => Sys2Proof.Machine.execSetProfile mode field value s
  | .setReserve zone value => Sys2Proof.Machine.execSetReserve zone value s
  | .scheduleSet minute mode => Sys2Proof.Machine.execScheduleSet minute mode s
  | .scheduleRemove minute => Sys2Proof.Machine.execScheduleRemove minute s
  | .scheduleClear => Sys2Proof.Machine.execScheduleClear s
  | .readSchedule => Sys2Proof.Machine.execReadSchedule s
  | .readClock => Sys2Proof.Machine.execReadClock s
  | .readProfiles => Sys2Proof.Machine.execReadProfiles s
  | .recipeWrite id version factor mask rank nameLength name stages => Sys2Proof.Machine.execRecipeWrite id version factor mask rank nameLength name stages s
  | .recipeDiscard id version => Sys2Proof.Machine.execRecipeDiscard id version s
  | .recipePublish id version => Sys2Proof.Machine.execRecipePublish id version s
  | .recipeWithdraw id version => Sys2Proof.Machine.execRecipeWithdraw id version s
  | .recipeAssign id version fields mask rank => Sys2Proof.Machine.execRecipeAssign id version fields mask rank s
  | .libraryList id version filter => Sys2Proof.Machine.execLibraryList id version filter s
  | .recipeRead id version => Sys2Proof.Machine.execRecipeRead id version s
  | .resync slot => Sys2Proof.Machine.execResync slot s
  | .clearRefused slot => Sys2Proof.Machine.execClearRefused slot s
  | .readCarried slot => Sys2Proof.Machine.execReadCarried slot s
  | .adjustSoil slot score => Sys2Proof.Machine.execAdjustSoil slot score s
  | .readSoil slot => Sys2Proof.Machine.execReadSoil slot s
  | .readSoilSettings => Sys2Proof.Machine.execReadSoilSettings s
  | .setArbiter mode slot => Sys2Proof.Machine.execSetArbiter mode slot s
  | .extend slot minute => Sys2Proof.Machine.execExtend slot minute s
  | .waive slot => Sys2Proof.Machine.execWaive slot s
  | .readCleaning => Sys2Proof.Machine.execReadCleaning s
  | .setRoute cls route => Sys2Proof.Machine.execSetRoute cls route s
  | .ack number => Sys2Proof.Machine.execAck number s
  | .dispatch number => Sys2Proof.Machine.execDispatch number s
  | .resolve number force => Sys2Proof.Machine.execResolve number force s
  | .close number => Sys2Proof.Machine.execClose number s
  | .clearUntracked slot => Sys2Proof.Machine.execClearUntracked slot s
  | .listTickets number filter slot => Sys2Proof.Machine.execListTickets number filter slot s
  | .readHolds slot => Sys2Proof.Machine.execReadHolds slot s
  | .releaseZone zone => Sys2Proof.Machine.execReleaseZone zone s
  | .readStops => Sys2Proof.Machine.execReadStops s
  | .campaignDefine id model firmware length crc waveSize => Sys2Proof.Machine.execCampaignDefine id model firmware length crc waveSize s
  | .addMember slot => Sys2Proof.Machine.execAddMember slot s
  | .removeMember slot => Sys2Proof.Machine.execRemoveMember slot s
  | .start => Sys2Proof.Machine.execStart s
  | .pause => Sys2Proof.Machine.execPause s
  | .resume => Sys2Proof.Machine.execResume s
  | .cancel => Sys2Proof.Machine.execCancel s
  | .dismiss => Sys2Proof.Machine.execDismiss s
  | .chunkPut id index data => Sys2Proof.Machine.execChunkPut id index data s
  | .readCampaign => Sys2Proof.Machine.execReadCampaign s
  | .readWanted => Sys2Proof.Machine.execReadWanted s
  | .readGaps slot => Sys2Proof.Machine.execReadGaps slot s
  | .saveNext => Sys2Proof.Machine.execSaveNext s
  | .restorePut kind index body => Sys2Proof.Machine.execRestorePut kind index body s
  | .goLive => Sys2Proof.Machine.execGoLive s
  | .getInfo => Sys2Proof.Machine.execGetInfo s
  | .resetFull => Sys2Proof.Machine.execResetFull s
  | .resetBus => Sys2Proof.Machine.execResetBus s
  | .readAttention => Sys2Proof.Machine.execReadAttention s
  | .setAttentionEnable set => Sys2Proof.Machine.execSetAttentionEnable set s
  | .minuteExpiry => Sys2Proof.Machine.execMinuteExpiry s
  | .scheduleBoundary => Sys2Proof.Machine.execScheduleBoundary s
  | .obligationOverdue slot => Sys2Proof.Machine.execObligationOverdue slot s
  | .obligationLock slot => Sys2Proof.Machine.execObligationLock slot s
  | .grantLapse slot => Sys2Proof.Machine.execGrantLapse slot s
  | .activationTimeout slot => Sys2Proof.Machine.execActivationTimeout slot s
  | .roundStart => Sys2Proof.Machine.execRoundStart s
  | .exchangeStart => Sys2Proof.Machine.execExchangeStart s
  | .attemptRetry => Sys2Proof.Machine.execAttemptRetry s
  | .replyTimeout => Sys2Proof.Machine.execReplyTimeout s
  | .invalidReply flaw => Sys2Proof.Machine.execInvalidReply flaw s
  | .exchangeFailure => Sys2Proof.Machine.execExchangeFailure s
  | .exchangeSuccess frame => Sys2Proof.Machine.execExchangeSuccess frame s
  | .unreachable slot => Sys2Proof.Machine.execUnreachable slot s
  | .commissionFailure slot => Sys2Proof.Machine.execCommissionFailure slot s
  | .beginTurnsLimit slot => Sys2Proof.Machine.execBeginTurnsLimit slot s
  | .repairLimit slot indices => Sys2Proof.Machine.execRepairLimit slot indices s
  | .thirdAbort slot => Sys2Proof.Machine.execThirdAbort slot s
  | .memberFinalFailure slot flaw => Sys2Proof.Machine.execMemberFinalFailure slot flaw s
  | .dataBroadcast => Sys2Proof.Machine.execDataBroadcast s
  | .sweepStart => Sys2Proof.Machine.execSweepStart s
  | .discoveryReply replySlot frame => Sys2Proof.Machine.execDiscoveryReply replySlot frame s
  | .sweepWindowClose => Sys2Proof.Machine.execSweepWindowClose s
  | .haltSend => Sys2Proof.Machine.execHaltSend s
  | .resetNReleased => Sys2Proof.Machine.execResetNReleased s

end Sys2Proof.Machine
end

