-- ==== Sys2Proof/Safety.lean ====
section
/-!
DEFINITION. What a safe run is, in the terms that the statements use: when the port takes a request and what it then
holds, the invariants that every step keeps, and the frames of the shared operations.
-/
namespace Sys2Proof.Machine

/-! ## The port -/

/-- A request is taken now: RESET_N is not held, and the port is in IDLE, or in BUSY with this very request in its
buffer (R167, R168; log 5). -/
def State.takes (c : Instr) (s : State) : Bool :=
  !s.site.env.held
    && (decide (s.port.state = .idle) || (decide (s.port.state = .busy) && decide (s.port.request = some c)))

/-- The state with a response placed and the site that the owner leaves: READY, the request buffer empty, everything else
of the port and the queue as before (R168). -/
def State.answer (s : State) (code : Byte) (status : Status) (payload : List Byte) (site : Site) : State :=
  { s with
    site := site
    port := { s.port with state := .ready, request := none
                          response := some { code := code, status := status, payload := payload } } }

/-- A request is taken in the LIVE phase. -/
def State.takesLive (c : Instr) (s : State) : Bool := s.takes c && s.site.env.live

/-- An event can happen: RESET_N is not held and the part is LIVE. -/
def State.running (s : State) : Bool := !s.site.env.held && s.site.env.live

/-- The state that a command leaves. -/
def State.after (c : Instr) (s : State) : State :=
  match exec c s with
  | .next t => t
  | .fault _ | .refused _ => s

/-- The slots whose member has an activation timer that has run down to 0 (R159). -/
def Recs.timedOut (r : Recs) : List (Fin 24) := slots.filter fun i => decide ((r.member i).bind Member.timer = some 0)

/-- The records with every activation timer one millisecond lower (R159). -/
def Recs.timersRun (r : Recs) : Recs :=
  { r with campaign := r.campaign.map fun c =>
      { c with members := c.members.map fun m => { m with timer := m.timer.map fun t => t - 1 } } }

/-- The state with other records. -/
def State.withRecs (s : State) (r : Recs) : State := { s with site := { s.site with recs := r } }

/-- READY and BUSY are never set together, READY means a response waits and BUSY a request (R167). -/
def Port.consistent (p : Port) : Bool :=
  match p.state with
  | .idle => p.request.isNone && p.response.isNone
  | .busy => p.request.isSome && p.response.isNone
  | .ready => p.request.isNone && p.response.isSome

/-- The requests that only read (R182: "every read"), less READ_ATTENTION, which clears what it returns (R174). -/
def isRead : Instr → Bool
  | .readDiscovery | .readIgnored | .readOven _ | .readSchedule | .readClock | .readProfiles | .libraryList _ _ _
  | .recipeRead _ _ | .readCarried _ | .readSoil _ | .readSoilSettings | .readCleaning | .listTickets _ _ _ | .readHolds _
  | .readStops | .readCampaign | .readWanted | .readGaps _ | .getInfo => true
  | _ => false

/-- The requests that are taken in the LIVE phase only (R182 and the rule of each). -/
def isLiveOnly : Instr → Bool
  | .admitOven _ _ _ _ | .reject _ | .clearIgnored | .retry _ | .setOven _ _ _ _ | .holdOven _ _ | .releaseOven _
  | .retire _ _ | .discoverNow | .recipeWrite _ _ _ _ _ _ _ _ | .recipeDiscard _ _ | .recipePublish _ _
  | .recipeWithdraw _ _ | .recipeAssign _ _ _ _ _ | .resync _ | .clearRefused _ | .adjustSoil _ _ | .extend _ _ | .waive _
  | .ack _ | .dispatch _ | .resolve _ _ | .close _ | .clearUntracked _ | .campaignDefine _ _ _ _ _ _ | .addMember _
  | .removeMember _ | .start | .pause | .resume | .cancel | .dismiss | .chunkPut _ _ _ => true
  | _ => false

/-! ## Replies on the oven bus -/

/-- The bus master stands in a phase of the exchange `x` with slot `i`, which holds the record `o` (R29, R31). -/
def State.exchanging (s : State) (phase : BusPhase) (i : Fin 24) (o : Oven) (x : Exchange) : Prop :=
  s.running = true ∧ s.site.recs.obm.phase = phase ∧ s.site.recs.obm.position = some i ∧ s.site.recs.obm.exchange = some x
    ∧ s.site.recs.obm.freed = false ∧ s.site.recs.oven i = some o

/-- The part listens for the reply to the telegram of the exchange `x` (R31). -/
def State.listens (s : State) (i : Fin 24) (o : Oven) (x : Exchange) : Prop := s.exchanging .listening i o x

/-- The third attempt of the exchange `x` has failed (R31). -/
def State.gaveUp (s : State) (i : Fin 24) (o : Oven) (x : Exchange) : Prop := s.exchanging .attemptFailed i o x ∧ 3 ≤ x.attempts

/-- A telegram whose delivery changes nothing at its owner: POLL, CAPS_REQ, whose answer is the CAPS report (R7, R12), and
CLEAN_GRANT, which became SENT when it was selected (R114). -/
def Work.plain : Work → Bool
  | .poll | .capsReq | .grant _ => true
  | .assign | .release _ | .revoke | .abort _ | .update _ | .clearSet | .drop _ | .load _ _ => false

/-- The reply of slot `i` to the telegram of an exchange, with a payload (R25, R189). -/
def replyFrame (i : Fin 24) (x : Exchange) (p : List Byte) : List Byte := busFrame (BitVec.ofNat 8 (i.val + 1)) x.kind.code p

/-- The frame of a reply of slot `i`: status block, event kind, event tag and event payload (R189). -/
def eventFrame (i : Fin 24) (x : Exchange) (status : List Byte) (kind : Nat) (tag : Bool) (p : List Byte) : List Byte :=
  busFrame (addressOf i) x.kind.code (status ++ u8 kind ++ flag tag ++ p)

/-- A reply to a plain telegram carries a status block and an event that is new by its tag (R37). -/
def State.carries (s : State) (i : Fin 24) (o : Oven) (x : Exchange) (status : List Byte) (tag : Bool) (p : List Byte) : Prop :=
  s.listens i o x ∧ x.work.plain = true ∧ status.length = 4 ∧ o.tag ≠ some tag ∧ p.length ≤ 249

/-- Such a reply whose status block gives more events, so that it is not reconciled (R16). -/
def State.brings (s : State) (i : Fin 24) (o : Oven) (x : Exchange) (status : List Byte) (tag : Bool) (p : List Byte) : Prop :=
  s.carries i o x status tag p ∧ bitOf (byteAt status 3) 2 = true

/-- A report at a severity or above stands for a slot and class: on a live ticket, or on the oven as its untracked severity
(R127, R128). -/
def Recs.reported (r : Recs) (i : Fin 24) (k : Fin 32) (v : Severity) : Prop :=
  (∃ (j : Fin 64) (t : Ticket), r.ticket j = some t ∧ t.slot = i ∧ t.cls = k ∧ t.state ≠ .resolved ∧ v.code ≤ t.severity.code)
    ∨ ∃ o : Oven, r.oven i = some o ∧ v.code ≤ severityCode o.untracked

/-- A ticket as a report opens it, with the route of its class (R127). -/
def openedTicket (e : Env) (i : Fin 24) (k : Fin 32) (code : BitVec 16) (sev : Severity) (org : Origin) (number : Nat) : Ticket :=
  { number := number, slot := i, cls := k, code := code, severity := sev, state := .opened, origin := org, route := e.routes[k]
    occurrences := 1, repeated := false, cleared := false, openedAt := e.minute, lastAt := e.minute, resolvedAt := none }

/-! ## Settings in range -/

/-- The ranges of a profile's fields (R45). -/
def Profile.inRange (p : Profile) : Bool :=
  decide (p.limit ≤ 8) && decide (p.rate ≤ 4) && decide (50 ≤ p.interval) && decide (p.interval ≤ 5000)

/-- A schedule in strictly ascending order of minute (R47). -/
def ascending : List SchedEntry → Bool
  | [] => true
  | [_] => true
  | x :: y :: l => decide (x.minute < y.minute) && ascending (y :: l)

/-- The schedule holds at most 8 entries of minutes of day, strictly ascending (R47). -/
def scheduleOk (l : List SchedEntry) : Bool :=
  decide (l.length ≤ 8) && (l.all fun x => decide (x.minute ≤ 1439)) && ascending l

/-- The ranges of the soil settings, with the thresholds strictly ascending (R91, R92). -/
def SoilSettings.inRange (s : SoilSettings) : Bool :=
  decide (s.wConvection ≤ 15) && decide (s.wSteam ≤ 15) && decide (s.wCombi ≤ 15) && decide (s.wHold ≤ 15)
    && decide (s.defaultFactor ≤ 15) && decide (s.manualFactor ≤ 15) && decide (60 ≤ s.reload) && decide (s.reload ≤ 2880)
    && decide (1 ≤ s.t1) && decide (s.t1 < s.t2) && decide (s.t2 < s.t3) && decide (s.t3 < s.t4) && decide (s.t4 ≤ 65535)
    && decide (s.creditLight ≤ 65535) && decide (s.creditMedium ≤ 65535) && decide (s.creditHeavy ≤ 65535)

/-- The ranges of the cleaning settings (R107). -/
def CleanSettings.inRange (c : CleanSettings) : Bool :=
  let grace (g : Nat) : Bool := decide (10 ≤ g) && decide (g ≤ 2880)
  grace c.graceLight && grace c.graceMedium && grace c.graceHeavy && grace c.graceIntensive
    && decide (5 ≤ c.window) && decide (c.window ≤ 240) && decide (c.lockDelay ≤ 1440)

/-- Every setting and the clock's fields within the ranges of the spec (R26, R43, R45 to R47, R91, R107). -/
def Env.inRange (e : Env) : Bool :=
  e.profiles.trading.inRange && e.profiles.prep.inRange && e.profiles.closed.inRange
    && (e.reserves.toList.all fun v => decide (v ≤ 6)) && scheduleOk e.schedule && e.soil.inRange && e.clean.inRange
    && decide (e.discovery ≤ 255) && decide (e.offset ≤ 1439) && decide (e.fraction ≤ 59999)

/-! ## Records -/

/-- The dirty count equals the number of DIRTY flags (R179). -/
def Persist.exact (p : Persist) : Prop := p.count = p.dirtyFlags

/-- For each oven slot and class at most one ticket is not RESOLVED (R125). -/
def Recs.liveTicketsUnique (r : Recs) : Prop :=
  ∀ (j k : Fin 64) (t u : Ticket), r.ticket j = some t → r.ticket k = some u → t.state ≠ .resolved → u.state ≠ .resolved →
    t.slot = u.slot → t.cls = u.cls → j = k

/-- Every IN_SERVICE oven without an obligation has a soil score below T1 and a hygiene counter above zero (R99). -/
def Recs.cleanWhileUnobliged (e : Env) (r : Recs) : Prop :=
  ∀ (i : Fin 24) (o : Oven), r.oven i = some o → o.lifecycle = .inService → o.obligation = none →
    o.soil.score < e.soil.t1 ∧ 0 < o.soil.hygiene

/-- No two occupied slots hold one serial, and a discovery entry holds the serial of no record and of no other entry (R1, R3);
in the RESTORE phase no entry stands, since no sweep has run (R39, R184). -/
def Recs.serialsUnique (phase : Phase) (r : Recs) : Prop :=
  (∀ (i j : Fin 24) (o p : Oven), r.oven i = some o → r.oven j = some p → o.serial = p.serial → i = j)
    ∧ (r.discovered.map Discovered.serial).Nodup
    ∧ (∀ (d : Discovered) (i : Fin 24) (o : Oven), d ∈ r.discovered → r.oven i = some o → o.serial ≠ d.serial)
    ∧ (phase = .restore → r.discovered = [])

/-- A member of a campaign of `chunks` chunks within the ranges of R144: the gap list strictly ascending, at most 32 indices, all
below the chunk count, and the counts within their bounds. -/
def Member.inForm (chunks : Nat) (m : Member) : Prop :=
  m.gaps.Pairwise (· < ·) ∧ m.gaps.length ≤ 32 ∧ (∀ g ∈ m.gaps, g < chunks)
    ∧ m.attempts ≤ 3 ∧ m.beginTurns ≤ 5 ∧ m.repairs ≤ 16 ∧ ∀ t, m.timer = some t → t ≤ 600000

/-- A campaign within the ranges of R143 and R144: members in ascending slot order, the wanted list ascending, at most 4 indices
wanted or in the window and none twice, all of them chunks of the image; none of them before a wave streams, and while it streams
all of them below the stream cursor (R152). -/
def Campaign.inForm (c : Campaign) : Prop :=
  (1 ≤ c.id ∧ c.id ≤ 65535) ∧ (1 ≤ c.length ∧ c.length ≤ 524288) ∧ (1 ≤ c.waveSize ∧ c.waveSize ≤ 8)
    ∧ c.members.Pairwise (fun m n => m.slot < n.slot) ∧ (∀ m ∈ c.members, m.inForm c.chunks) ∧ c.cursor ≤ c.chunks
    ∧ c.wanted.Pairwise (· < ·) ∧ c.held.Nodup ∧ c.held.length ≤ 4 ∧ (∀ g ∈ c.held, g < c.chunks)
    ∧ ((c.phase = .none ∨ c.phase = .forming) → c.held = []) ∧ (c.phase = .streaming → ∀ g ∈ c.held, g < c.cursor)

/-- The campaign, where one is present, is within its ranges. -/
def Recs.campaignInForm (r : Recs) : Prop := ∀ c, r.campaign = some c → c.inForm

/-- The obligation of slot `i` stands before that of slot `j` in an arbiter run: overdue before not overdue, then the higher level,
then the shorter way from P upward (R113). -/
def Recs.ahead (r : Recs) (i j : Fin 24) : Bool :=
  match r.obligation i, r.obligation j with
  | some b, some d =>
    (b.overdue && !d.overdue)
      || (decide (b.overdue = d.overdue) && (decide (d.level.code < b.level.code)
        || (decide (b.level = d.level) && decide ((i - r.first).val < (j - r.first).val))))
  | _, _ => false

/-- An oven record without the fields that a change of hold reasons may write: the obligation and its grant telegram, the
revocation owed, OVERDUE_LOCK, UPDATE and the untracked severity. -/
def Oven.settled (o : Oven) : Oven :=
  { o with obligation := none, grantTelegram := .none, revokeOwed := false, overdueLock := false, updateHold := false
           untracked := none }

/-- The slots whose member is ACTIVATING and whose oven is in a zone. -/
def Recs.activatingIn (r : Recs) (z : Fin 4) : List (Fin 24) :=
  slots.filter fun i => r.activating i && r.ovenIs i fun o => decide (o.zone = z)

end Sys2Proof.Machine
end

