-- ==== Sys2Proof/Certificates/Slice0/Obligations.lean ====
section
/-!
DEFINITION. The statements for the provers, one for each entry of OBLIGATIONS.json. A statement that gives the whole next
state of a command gives its frame with it: what the equation does not change is as before.
-/
open Sys2Proof Sys2Proof.Machine

/-! ## The machine -/

/-- A step runs the command at the front of the queue on the state with the rest of the queue (log 1). -/
def Obligations.StepRunsFrontCommand : Prop :=
  ∀ (c : Instr) (rest : List Instr) (s : State), s.pending = c :: rest → step s = exec c { s with pending := rest }

/-- The model's choice (log 2, log 5): on an empty queue a step has the owner take the request in the port's buffer,
and otherwise lets a millisecond pass; while RESET_N is held nothing passes.

A millisecond raises the tick and the minute fraction, and in the RESTORE phase nothing else; a fraction of 59,999 ends the minute
instead, with all that MINUTE_EXPIRY brings (R43). In the LIVE phase every activation timer runs down by 1 then, the members whose
timer stands at 0 time out in slot order (R159, R162), the bus master ends a turn whose slot was freed and a DATA step with nothing
left to send (log 34), and a round whose interval has elapsed starts (R27). -/
def Obligations.EmptyQueueStepTakesBufferedRequestOrTicks : Prop :=
  ∀ s : State, s.pending = [] →
    (∀ c, s.port.state = .busy → s.port.request = some c → step s = exec c s)
      ∧ (s.port.state ≠ .busy → s.site.env.held = true → step s = .next s)
      ∧ (s.port.state ≠ .busy → s.site.env.held = false →
        let e := s.site.env
        let s1 : State :=
          if e.fraction < 59999 then { s with site := { s.site with env := { e with tick := e.tick + 1, fraction := e.fraction + 1 } } }
          else State.after .minuteExpiry { s with site := { s.site with env := { e with tick := e.tick + 1 } } }
        let s2 : State := s1.withRecs s1.site.recs.timersRun
        let s3 : State := s2.site.recs.timedOut.foldl (fun t i => State.after (.activationTimeout i) t) s2
        let r := s3.site.recs
        (e.phase = .restore → step s = .next s1)
        ∧ (e.phase = .live → step s = exec .roundStart (s3.withRecs (r.settleBus s3.site.env))
          ∧ (r.obm.phase ≠ .data → (r.obm.phase = .turn → r.obm.freed = false) → step s = exec .roundStart s3)))

/-- No command of any row stops the part, and none touches the queue of the commands that wait (log 1, log 4). -/
def Obligations.EveryCommandAnswersAndKeepsTheQueue : Prop :=
  ∀ (c : Instr) (s : State), ∃ t, exec c s = .next t ∧ t.pending = s.pending

/-! ## Frames and the port -/

/-- A request frame built as R166 gives it passes check 1 of R169 with its payload, whatever bytes follow it; a bus frame
built as R189 gives it is read back at its address and kind. -/
def Obligations.FramesAreReadBack : Prop :=
  (∀ (code : Byte) (p extra : List Byte), p.length ≤ 512 →
    requestPayload (code :: u16 p.length ++ p ++ crc16Bytes (code :: u16 p.length ++ p) ++ extra) = some p)
    ∧ ∀ (address kind : Byte) (p : List Byte), p.length ≤ 255 → payloadOf address kind (busFrame address kind p) = some p

/-- A request write in IDLE (R167, R169): a frame that passes the checks is held in BUSY for its owner; one that fails is
answered by the HPU with the status of the failing check, the code echoed and no payload. The status byte is shifted out,
then zeros (R166).

A request write in BUSY or READY is dropped: OVERRUN sets and nothing else changes but the bytes shifted out (R167).

A response read in READY shifts out the status byte and the response; one that reaches the last CRC byte returns the
port to IDLE, empties the response buffer and clears OVERRUN; a shorter one leaves all three (R167, R170). In IDLE and BUSY
zeros follow the status byte. -/
def Obligations.RequestWriteAndResponseReadMoveThePort : Prop :=
  (∀ (frame : List Byte) (s : State), isRequestWrite frame = true → s.site.env.held = false → s.port.state = .idle →
      (∀ i, checkFrame frame = .ok i → exec (.requestWrite frame) s = .next { s with port := { s.port with
          state := .busy, request := some i, shifted := s.statusByte :: List.replicate (frame.length - 1) 0#8 } })
        ∧ ∀ why, checkFrame frame = .error why → exec (.requestWrite frame) s = .next { s with port := { s.port with
          state := .ready, response := some { code := byteAt frame 0, status := why, payload := [] }
          shifted := s.statusByte :: List.replicate (frame.length - 1) 0#8 } })
    ∧ (∀ (frame : List Byte) (s : State), isRequestWrite frame = true → s.site.env.held = false → s.port.state ≠ .idle →
      let t : State := { s with port := { s.port with
        overrun := true, shifted := s.statusByte :: List.replicate (frame.length - 1) 0#8 } }
      exec (.requestDropped frame) s = .next t ∧ exec (.requestWrite frame) s = .next t)
    ∧ (∀ (n : Nat) (s : State), 1 ≤ n → s.site.env.held = false →
      (∀ x, s.port.state = .ready → s.port.response = some x →
        (6 + x.payload.length ≤ n → exec (.responseRead n) s = .next { s with port := { s.port with
          state := .idle, response := none, overrun := false
          shifted := s.statusByte :: (x.bytes ++ List.replicate (n - (6 + x.payload.length)) 0#8) } })
        ∧ (n < 6 + x.payload.length → exec (.responseRead n) s = .next { s with port := { s.port with
          shifted := s.statusByte :: x.bytes.take n } }))
      ∧ (s.port.state ≠ .ready → exec (.responseRead n) s = .next { s with port := { s.port with
          shifted := s.statusByte :: List.replicate n 0#8 } }))

/-- The five flags of the port status byte (R167): READY, BUSY, OVERRUN, ATTN and LIVE in bits 0 to 4, the rest clear.

ATTN_N is low while some cause is both pending and enabled and RESET_N is not held, high otherwise (R173). A cause is
pending while it is latched or its level condition holds: the discovery list, a stop latch, the wanted list, the dirty
count (R172).

READ_ATTENTION returns the pending, latched and enable sets and clears the latched causes (R174);
SET_ATTENTION_ENABLE stores the enable set and returns it with the pending set (R173). Both are taken in both phases. -/
def Obligations.AttentionAndStatusShowTheCauses : Prop :=
  (∀ s : State,
      s.statusByte.getLsbD 0 = decide (s.port.state = .ready) ∧ s.statusByte.getLsbD 1 = decide (s.port.state = .busy)
        ∧ s.statusByte.getLsbD 2 = s.port.overrun ∧ s.statusByte.getLsbD 3 = !s.attnN
        ∧ s.statusByte.getLsbD 4 = decide (s.site.env.phase = .live) ∧ ∀ n, 5 ≤ n → s.statusByte.getLsbD n = false)
    ∧ (∀ s : State,
      (s.attnN = false ↔ s.site.env.held = false
        ∧ ∃ c : Cause, s.site.recs.pendingSet.getLsbD c.number = true ∧ s.site.env.enable.getLsbD c.number = true)
      ∧ ∀ c : Cause, s.site.recs.pendingSet.getLsbD c.number = true ↔
          s.site.recs.latched.getLsbD c.number = true
            ∨ (c = .discovered ∧ s.site.recs.discovered ≠ []) ∨ (c = .zoneStop ∧ ∃ z : Fin 4, s.site.recs.latches[z] = true)
            ∨ (c = .chunkWanted ∧ ∃ x, s.site.recs.campaign = some x ∧ x.wanted ≠ [])
            ∨ (c = .persist ∧ 0 < s.site.recs.persist.count))
    ∧ ((∀ s : State, s.takes .readAttention = true →
      exec .readAttention s = .next (s.answer 0x72#8 .ok
        (u16 s.site.recs.pendingSet.toNat ++ u16 s.site.recs.latched.toNat ++ u16 s.site.env.enable.toNat)
        { s.site with recs := { s.site.recs with latched := 0#16 } }))
      ∧ ∀ (x : BitVec 16) (s : State), s.takes (.setAttentionEnable x) = true →
        exec (.setAttentionEnable x) s = .next (s.answer 0x73#8 .ok (u16 x.toNat ++ u16 s.site.recs.pendingSet.toNat)
          { s.site with env := { s.site.env with enable := x } }))

/-- Every request that a chapter takes in the LIVE phase only is refused with NOT_LIVE in the RESTORE phase, whatever its
operands, and changes no record (R171, R182). -/
def Obligations.LiveRequestsAreRefusedInRestore : Prop :=
  ∀ (c : Instr) (s : State), isLiveOnly c = true → s.site.env.phase = .restore → s.takes c = true →
    exec c s = .next (s.answer (requestCode c) .notLive [] s.site)

/-! ## Pins, power and resets -/

/-- Power-on and an assertion of RESET_N give every block its power-on values, with the stop latches as the lines stand
(R142, R177, R178); after RESET_N is released the part runs with those values. The line levels are the inputs' own. That
POWER_ON leaves RESET_N not held is log 33, the values of Port.reset and Obm.reset that no rule gives are log 3, and that the
queue stays is log 1.

RESET with scope FULL: power-on values, but the last reset cause is HOST_FULL and the port holds the OK response in
READY (R176, R178). -/
def Obligations.PowerOnResetPinAndFullResetGivePowerOnValues : Prop :=
  (∀ s : State,
      let after (held : Bool) : State :=
        { port := Port.reset
          site := { env := { Env.reset with held := held, lines := s.site.env.lines }
                    recs := { Recs.reset with latches := s.site.env.lines } }
          pending := s.pending }
      exec .powerOn s = .next (after false) ∧ exec .resetNAsserted s = .next (after true)
        ∧ (s.site.env.held = true → exec .resetNReleased s = .next (after false)))
    ∧ (∀ s : State, s.takes .resetFull = true →
      exec .resetFull s = .next
        { port := { state := .ready, request := none, response := some { code := 0x71#8, status := .ok, payload := [] }
                    overrun := false, shifted := s.port.shifted }
          site := { env := { Env.reset with cause := .hostFull, lines := s.site.env.lines }
                    recs := { Recs.reset with latches := s.site.env.lines } }
          pending := s.pending })

/-- RESET with scope BUS: the OK response; every setting and the clock, the ignore list and the stop latches stay, and the
discovery list empties (R24, R42, R142, R176). In the LIVE phase round 0 starts at once with the profile in force: the lowest
occupied slot that is not FAILED has the first turn, and with no such slot a sweep is due or the round is over (R27, R28, R39,
R42). In the RESTORE phase the bus is silent (R26).

Every oven record stays with its cook context closed, no missed turn, reachable, nothing in flight and nothing owed; its
lifecycle state and step move as R24 gives, and a GRANTED obligation is DUE (R24, R89, R124, R138), which meets no overdue or lock
test (log 28).

The campaign keeps its members, none of which is in a wave or owes a telegram; one that was in the wave is back in QUEUED with no
gap, and one whose UPDATE_ACTIVATE was not yet selected is READY (R144, R165). Every other member stays in its state, unless such
a return to READY changes its oven's strength in the LIVE phase while the campaign is RUNNING: then admission makes each QUEUED or
DEFERRED member DEFERRED, with MODEL or NOT_IN_SERVICE, or DONE (R136, R149). That the wave flag of every member clears is log 26;
that records and members move so in the RESTORE phase too, that an ACTIVATING member that owes nothing stays, and that a
retirement that has proceeded keeps RELEASE before it falls due, is log 28. -/
def Obligations.BusResetKeepsSettingsAndRestartsTheBus : Prop :=
  ∀ s : State, s.takes .resetBus = true →
    let e := s.site.env
    let turnFor (j : Fin 24) : Prop := ∃ p : Oven, s.site.recs.oven j = some p ∧ p.lifecycle ≠ .failed
    ∃ r : Recs, exec .resetBus s = .next (s.answer 0x71#8 .ok [] { s.site with recs := r })
      ∧ r.discovered = [] ∧ r.ignored = s.site.recs.ignored ∧ r.latches = s.site.recs.latches ∧ r.obm.round = 0
      ∧ r.obm.sweepNow = false ∧ r.obm.seed = 0 ∧ r.obm.halts = [] ∧ r.obm.exchange = none ∧ r.obm.exchanges = 0
      ∧ (e.phase = .restore → r.obm.phase = .silent ∧ r.obm.position = none ∧ r.obm.startTick = none)
      ∧ (e.phase = .live → r.obm.startTick = some e.tick ∧ r.obm.interval = e.profile.interval ∧ r.obm.rate = e.profile.rate
        ∧ (∀ i : Fin 24, turnFor i → (∀ j, j < i → ¬turnFor j) → r.obm.position = some i ∧ r.obm.phase = .turn)
        ∧ ((∀ i : Fin 24, ¬turnFor i) → r.obm.position = none
          ∧ r.obm.phase = if e.discovery = 0 then .waiting else .sweepDue))
      ∧ (∀ i : Fin 24, s.site.recs.oven i = none → r.oven i = none)
      ∧ (∀ (i : Fin 24) (o : Oven), s.site.recs.oven i = some o → ∃ o' : Oven, r.oven i = some o'
        ∧ o'.serial = o.serial ∧ o'.served = o.served ∧ o'.activity = o.activity ∧ o'.tag = o.tag ∧ o'.refused = o.refused
        ∧ o'.cook = none ∧ o'.missed = 0 ∧ o'.unreachable = false ∧ o'.inFlight = none ∧ o'.grantTelegram = .none
        ∧ o'.revokeOwed = false ∧ o'.abortOwed = none ∧ o'.applied = none ∧ o'.mismatch = false
        ∧ o'.obligation = (o.obligation.map fun b => if b.state = .granted then { b with state := .due, grant := none } else b)
        ∧ ((o.lifecycle = .inService ∨ o.lifecycle = .loading ∨ o.lifecycle = .profiling ∨ o.lifecycle = .rejoining) →
            o'.lifecycle = .rejoining ∧ o'.step = some .capsReq)
        ∧ (o.lifecycle = .addressing → o'.lifecycle = .addressing ∧ o'.step = some .assign)
        ∧ (o.lifecycle = .failed → o'.lifecycle = .failed ∧ o'.step = none)
        ∧ (o.lifecycle = .retiring → o'.lifecycle = .retiring ∧ o'.step = if o.step = some .release then some .release else none))
      ∧ (∀ c : Campaign, s.site.recs.campaign = some c →
        let streams (m : Member) : Prop := (m.state = .queued ∧ m.wave = true) ∨ m.state = .transfer ∨ m.state = .repair ∨ m.state = .verify
        let unsent (m : Member) : Prop := m.state = .activating ∧ m.owed = some .activate ∧ m.onLine = false
        let back (m m' : Member) : Prop := m' = { m with
          owed := none, wave := false, waits := m'.waits, state := m'.state, gaps := m'.gaps, timer := m'.timer }
          ∧ (streams m → m'.state = .queued ∧ m'.gaps = [] ∧ m'.timer = m.timer)
          ∧ (unsent m → m'.state = .ready ∧ m'.gaps = m.gaps ∧ m'.timer = none)
          ∧ (¬streams m → ¬unsent m → m'.state = m.state ∧ m'.gaps = m.gaps ∧ m'.timer = m.timer)
        let admits := e.phase = .live ∧ c.state = .running ∧ ∃ i : Fin 24, s.site.recs.strength i ≠ r.strength i
        let waits (m : Member) : Prop := m.state = .queued ∨ m.state = .deferred
        let examined (m : Member) : Member := match s.site.recs.oven m.slot with
          | none => { m with state := .deferred, defer := some .notInService }
          | some o =>
            if o.model ≠ c.model then { m with state := .deferred, defer := some .model }
            else if o.firmware = c.firmware then { m with state := .done, defer := some .alreadyCurrent }
            else { m with state := .deferred, defer := some .notInService }
        ∃ c' : Campaign, r.campaign = some c' ∧ c' = { c with
            state := c'.state, members := c'.members, phase := .none, wanted := [], window := [], repaired := [] }
          ∧ ((∀ n ∈ c.members, ¬unsent n) → c'.state = c.state ∧ ¬admits)
          ∧ c'.members.length = c.members.length
          ∧ ∀ (n : Nat) (m m' : Member), c.members[n]? = some m → c'.members[n]? = some m' → (m'.waits = true → m.waits = true)
            ∧ ∃ k : Member, back m k ∧ (¬admits ∨ ¬waits k → m' = k) ∧ (admits → waits k → m' = examined k))

/-- A STOP line that becomes asserted while its latch is clear sets the latch, every oven of the zone is held HARD, and in
the LIVE phase HALT is queued with 3 sends; while the latch is set an assertion changes only the level, and a deasserted
line leaves its latch (R139, R41). Setting the latch revokes, in either phase, the grant of every oven of the zone, which marks
its OVEN index and owes the oven a revocation if its telegram was SENT (R116). In the RESTORE phase nothing else of a record
changes: that the neighbours do no more before GO_LIVE is log 8.

RELEASE_ZONE: WRONG_STATE while its line is asserted; OK and no change when the latch is clear; otherwise the latch
clears, and the loss of ZONE_STOP is told to the neighbours (R136, R140; in the order of log 9), which in the RESTORE phase brings
nothing more (log 8). -/
def Obligations.StopLinesAndReleaseMoveTheLatches : Prop :=
  (∀ (z : Fin 4) (s : State), s.site.env.held = false →
      (s.site.env.lines[z] = false → s.site.recs.latches[z] = false →
        ∃ r : Recs, exec (.stopAsserted z) s
            = .next { s with site := { env := { s.site.env with lines := s.site.env.lines.set z true }, recs := r } }
          ∧ r.latches = s.site.recs.latches.set z true
          ∧ (∀ (i : Fin 24) (o : Oven), r.oven i = some o → o.zone = z → r.strength i = .hard)
          ∧ (s.site.env.phase = .live → ∃ h, h ∈ r.obm.halts ∧ h.zone = z ∧ h.sends = 3)
          ∧ (∀ (i : Fin 24) (o : Oven), s.site.recs.oven i = some o → o.zone = z → ∃ o' : Oven, r.oven i = some o'
            ∧ r.oblIs i .granted = false
            ∧ (s.site.recs.oblIs i .granted = true → r.persist.get (.oven i) = true ∧ o'.grantTelegram = .none
              ∧ (o.grantTelegram = .sent → o'.revokeOwed = true)))
          ∧ (s.site.env.phase = .restore → r.obm.halts = s.site.recs.obm.halts
            ∧ ∀ i : Fin 24, r.oven i = (s.site.recs.oven i).map fun o =>
                if o.zone = z ∧ s.site.recs.oblIs i .granted = true then
                  { o with
                    obligation := o.obligation.map fun b => { b with state := .due, grant := none }
                    revokeOwed := o.revokeOwed || decide (o.grantTelegram = .sent), grantTelegram := .none }
                else o))
      ∧ (s.site.env.lines[z] = false → s.site.recs.latches[z] = true →
        exec (.stopAsserted z) s
          = .next { s with site := { s.site with env := { s.site.env with lines := s.site.env.lines.set z true } } })
      ∧ exec (.stopDeasserted z) s
          = .next { s with site := { s.site with env := { s.site.env with lines := s.site.env.lines.set z false } } })
    ∧ (∀ (z : Fin 4) (s : State), s.takes (.releaseZone (BitVec.ofNat 8 z.val)) = true →
      let answer (st : Status) (site : Site) : State := s.answer 0x50#8 st [] site
      (s.site.env.lines[z] = true → exec (.releaseZone (BitVec.ofNat 8 z.val)) s = .next (answer .wrongState s.site))
      ∧ (s.site.env.lines[z] = false → s.site.recs.latches[z] = false →
          exec (.releaseZone (BitVec.ofNat 8 z.val)) s = .next (answer .ok s.site))
      ∧ (s.site.env.lines[z] = false → s.site.recs.latches[z] = true →
          let cleared : Recs := { s.site.recs with latches := s.site.recs.latches.set z false }
          exec (.releaseZone (BitVec.ofNat 8 z.val)) s
              = .next (answer .ok { s.site with recs := Recs.tellHolds s.site.env s.site.recs cleared })
            ∧ (s.site.env.phase = .restore → Recs.tellHolds s.site.env s.site.recs cleared = cleared)
            ∧ (Recs.tellHolds s.site.env s.site.recs cleared).latches = s.site.recs.latches.set z false))

/-- What reset leaves: the phase, the clock, the mode and its profiles, the reserves, every soil and cleaning setting, the working
first-priority slot 0, the next issue sequence number 1 and the next ticket number 1, the routes, no record of any kind, every flag
CLEAN, the bus silent at round 0 (R23, R26, R45, R46, R54, R91, R107, R124, R126, R142, R178, R179). The stop
latches follow the STOP lines (R142), which the model has deasserted at reset (log 3). -/
def Obligations.ResetLeavesTheSpecValues : Prop :=
  let e := State.reset.site.env
  let r := State.reset.site.recs
  e.phase = .restore ∧ e.cause = .power ∧ e.enable = 0#16 ∧ e.minute = 0#32 ∧ e.clockValid = false ∧ e.offset = 0 ∧ e.fraction = 0
    ∧ e.mode = .trading ∧ e.overridden = false ∧ e.schedule = [] ∧ e.discovery = 10
    ∧ e.profiles.trading = { limit := 1, activate := false, rate := 1, interval := 200, link := true, push := false }
    ∧ e.profiles.prep = { limit := 3, activate := false, rate := 2, interval := 200, link := true, push := true }
    ∧ e.profiles.closed = { limit := 8, activate := true, rate := 4, interval := 1000, link := false, push := true }
    ∧ (∀ z : Fin 4, e.reserves[z] = 1) ∧ (∀ k : Fin 32, e.routes[k] = .local)
    ∧ e.soil.wConvection = 4 ∧ e.soil.wSteam = 1 ∧ e.soil.wCombi = 6 ∧ e.soil.wHold = 1
    ∧ e.soil.defaultFactor = 4 ∧ e.soil.manualFactor = 5
    ∧ e.soil.creditLight = 2500 ∧ e.soil.creditMedium = 6000 ∧ e.soil.creditHeavy = 12000
    ∧ e.soil.t1 = 2000 ∧ e.soil.t2 = 5000 ∧ e.soil.t3 = 10000 ∧ e.soil.t4 = 20000 ∧ e.soil.reload = 1200
    ∧ e.clean.graceLight = 720 ∧ e.clean.graceMedium = 360 ∧ e.clean.graceHeavy = 180 ∧ e.clean.graceIntensive = 60
    ∧ e.clean.window = 30 ∧ e.clean.lockDelay = 120 ∧ e.clean.arbiter = .rotate ∧ e.clean.first = 0
    ∧ r.first = 0 ∧ r.sequence = 1 ∧ r.nextTicket = 1
    ∧ (∀ i : Fin 24, r.oven i = none) ∧ (∀ k : Fin 128, r.recipe k = none) ∧ (∀ k : Fin 64, r.ticket k = none)
    ∧ r.campaign = none ∧ r.discovered = [] ∧ r.ignored = [] ∧ (∀ z : Fin 4, r.latches[z] = false)
    ∧ (∀ ix : Index, r.persist.get ix = false) ∧ r.persist.count = 0 ∧ r.latched = 0#16
    ∧ State.reset.port.state = .idle ∧ State.reset.port.request = none ∧ State.reset.port.response = none
    ∧ State.reset.port.overrun = false ∧ r.obm.phase = .silent ∧ r.obm.round = 0 ∧ r.obm.position = none
    ∧ r.obm.exchange = none ∧ r.obm.seed = 0 ∧ r.obm.halts = []

/-! ## Reads -/

/-- A request that only reads changes no record, no setting and no clock, in either phase. -/
def Obligations.ReadRequestsChangeNothing : Prop :=
  ∀ (c : Instr) (s t : State), isRead c = true → exec c s = .next t → t.site = s.site

/-- The fleet, library and carried-list reads answer OK with the fields their rules list, in the layout of R187, log 10
and log 11, and leave the site as it is (R5, R70, R71, R88). Where the fields need more than 512 bytes see log 12.

The clock, soil and cleaning reads answer OK with the fields their rules list and leave the site as it is (R47, R53,
R104, R123), in the layout of R187, log 10 and log 11.

The ticket, hold, stop-line, campaign and part reads answer OK with the fields their rules list and leave the site as it
is (R134, R138, R141, R164, R175), in the layout of R187, log 10 and log 11. -/
def Obligations.ReadRequestsAnswerTheirFields : Prop :=
  (∀ s : State,
      let r := s.site.recs
      let gives (c : Instr) (code : Byte) (p : List Byte) : Prop :=
        s.takes c = true → p.length ≤ 512 → exec c s = .next (s.answer code .ok p s.site)
      gives .readDiscovery 0x09#8 (counted (r.discovered.map Discovered.bytes))
        ∧ gives .readIgnored 0x0A#8 (counted (r.ignored.map fun x => u48 x.toNat))
        ∧ (∀ (i : Fin 24) (o : Oven), r.oven i = some o →
            gives (.readOven (BitVec.ofNat 8 i.val)) 0x0B#8 (u16 (r.ovenBody i o).length ++ r.ovenBody i o))
        ∧ (∀ i : Fin 24, r.oven i = none → gives (.readOven (BitVec.ofNat 8 i.val)) 0x0B#8 [0#8, 0#8])
        ∧ (∀ (id : BitVec 16) (v : Byte) (k : Fin 128) (x : Recipe) (rest : List (Fin 128 × Recipe)), id.toNat ≤ 4095 →
            ((r.recordsByPair fun _ => true).filter fun q => !pairBefore q.2.pair (id.toNat, v.toNat)) = (k, x) :: rest →
            gives (.recipeRead id v) 0x2E#8 (r.listed k x ++ counted (x.stages.map Stage.bytes)
              ++ optional 3 (rest.head?.map fun n => pairBytes n.2.pair)))
        ∧ (∀ (id : BitVec 16) (v filter : Byte) (p : Recipe → Bool), stateFilter filter.toNat = some p →
            let l := (r.recordsByPair p).filter fun q => !pairBefore q.2.pair (id.toNat, v.toNat)
            gives (.libraryList id v filter) 0x2D#8 (counted ((l.take 15).map fun q => r.listed q.1 q.2)
              ++ optional 3 (if 15 < l.length then (l.take 15).getLast?.map fun q => pairBytes (pairAfter q.2.pair) else none)
              ++ u8 r.libraryCount ++ u16 r.poolFree))
        ∧ (∀ (i : Fin 24) (o : Oven), r.oven i = some o →
            gives (.readCarried (BitVec.ofNat 8 i.val)) 0x32#8
              (optional 1 (o.carriedLimit.map u8) ++ counted (o.carried.map Entry.bytes) ++ optional 4 (o.inFlight.map InFlight.bytes)
                ++ flag o.clearPending ++ u32 (digest o.carried).toNat ++ counted (o.refused.map pairBytes) ++ u8 o.unfit
                ++ u8 o.overflow)))
    ∧ (∀ s : State,
      let e := s.site.env
      let r := s.site.recs
      let gives (c : Instr) (code : Byte) (p : List Byte) : Prop :=
        s.takes c = true → p.length ≤ 512 → exec c s = .next (s.answer code .ok p s.site)
      gives .readSchedule 0x20#8 (counted (e.schedule.map SchedEntry.image))
        ∧ gives .readClock 0x21#8 (u32 e.minute.toNat ++ u32 e.fraction ++ u16 e.offset ++ u16 ((e.minute + BitVec.ofNat 32 e.offset).toNat % 1440)
            ++ flag e.clockValid ++ u8 e.mode.code ++ flag e.overridden ++ optional 1 (e.scheduledNow.map fun m => u8 m.code)
            ++ optional 2 (e.nextBoundary.map u16))
        ∧ gives .readProfiles 0x22#8 (e.profiles.trading.image ++ [1#8] ++ e.profiles.prep.image ++ [1#8]
            ++ e.profiles.closed.image ++ [0#8] ++ (e.reserves.toList.map u8).flatten)
        ∧ (∀ (i : Fin 24) (o : Oven), r.oven i = some o →
            gives (.readSoil (BitVec.ofNat 8 i.val)) 0x39#8 (o.soil.image ++ levelBytes (e.soil.demanded o.soil)
              ++ flag (decide (o.lifecycle = .inService))))
        ∧ gives .readSoilSettings 0x3A#8 e.soil.image
        ∧ gives .readCleaning 0x43#8 (u8 e.clean.arbiter.code ++ u8 e.clean.first.val ++ u8 r.first.val ++ u32 r.sequence
            ++ u8 e.profile.limit ++ u8 r.grantsOut ++ u8 r.cleaningCount
            ++ ((List.finRange 4).flatMap fun z => u8 (r.readyCount z) ++ u8 e.reserves[z] ++ flag (reservesApply e.mode))
            ++ counted (slots.flatMap r.cleaningEntry) ++ e.clean.image))
    ∧ (∀ s : State,
      let e := s.site.env
      let r := s.site.recs
      let gives (c : Instr) (code : Byte) (p : List Byte) : Prop :=
        s.takes c = true → p.length ≤ 512 → exec c s = .next (s.answer code .ok p s.site)
      (∀ (n : BitVec 16) (filter : Byte) (i : Fin 24) (p : Ticket → Bool), ticketFilter filter.toNat i = some p →
        let l := (r.ticketsByNumber p).filter fun q => decide (n.toNat ≤ q.2.number)
        gives (.listTickets n filter (BitVec.ofNat 8 i.val)) 0x4E#8 (counted ((l.take 16).map fun q => q.2.image ++ u8 q.1.val)
          ++ optional 2 (if 16 < l.length then (l.take 16).getLast?.map fun q => u16 (q.2.number + 1) else none)
          ++ u8 (ticketPlaces.filterMap r.ticket).length
          ++ u8 ((ticketPlaces.filterMap r.ticket).countP fun t => decide (t.state = .resolved))))
        ∧ (∀ (i : Fin 24) (o : Oven), r.oven i = some o →
            gives (.readHolds (BitVec.ofNat 8 i.val)) 0x4F#8 (u8 (r.reasons i).mask ++ u8 (hostHoldCode o.hostHold)
              ++ u8 (r.strength i).code ++ optional 1 (o.applied.map fun x => u8 x.code) ++ flag o.mismatch
              ++ u8 (severityCode o.untracked) ++ u8 (severityCode (r.standing i)) ++ u8 o.zone.val ++ flag r.latches[o.zone]))
        ∧ gives .readStops 0x51#8 ((List.finRange 4).flatMap fun z =>
            flag r.latches[z] ++ flag e.lines[z] ++ u8 (r.countOvens fun _ o => decide (o.zone = z)))
        ∧ (r.campaign = none → gives .readCampaign 0x61#8 [0#8, 0#8])
        ∧ (∀ c : Campaign, r.campaign = some c →
            gives .readCampaign 0x61#8 (u16 (r.campaignBody c).length ++ r.campaignBody c)
              ∧ gives .readWanted 0x62#8 (u16 c.id ++ u16 c.chunks ++ counted (c.wanted.map u16)
                  ++ counted (c.window.map fun k => u16 k.index))
              ∧ ∀ (i : Fin 24) (m : Member), c.member i = some m →
                  gives (.readGaps (BitVec.ofNat 8 i.val)) 0x63#8 (u16 c.id ++ u8 i.val ++ counted (m.gaps.map u16)))
        ∧ gives .getInfo 0x70#8 (u16 0x4B24 ++ u8 0x10 ++ u8 e.cause.code ++ u8 e.phase.code ++ u8 e.mode.code ++ flag e.overridden
            ++ flag e.clockValid ++ u16 r.persist.count
            ++ u16 24 ++ u16 128 ++ u16 768 ++ u16 64 ++ u16 24 ++ u16 219 ++ u16 16 ++ u16 512))

/-! ## The fleet table -/

/-- ADMIT in the LIVE phase of a discovered serial to a free slot: the discovery entry goes, the slot holds a record in
ADDRESSING with step ASSIGN, no soil, a full hygiene counter, no obligation and no hold of its own, with zone and group
clamped, and the OVEN index is marked (R6); its retire-forced flag starts clear (log 42), and in a zone whose stop latch is set no
neighbour is told of it (log 44). A slot above 23 is refused with BAD_VALUE,
else a serial that is not discovered with NOT_FOUND, else an occupied slot with IN_USE (R6).

REJECT moves a discovered serial to the end of an ignore list with room, and is refused with NO_SPACE when the list
holds 8 and with NOT_FOUND for a serial that is not discovered; CLEAR_IGNORED empties the list (R4).

RETRY returns a FAILED record to ADDRESSING with step ASSIGN and no missed turn, and marks its index (R10); RESYNC
gives a LOADING or IN_SERVICE record the step CAPS_REQ (R87); CLEAR_REFUSED empties the refused list, and a list that held
a pair brings a new target with its loading test (R75, R87). -/
def Obligations.FleetRequestsWriteListsAndRecords : Prop :=
  (∀ (i : Fin 24) (zone group : Byte) (d : Discovered) (s : State),
      s.takesLive (.admitOven d.serial (BitVec.ofNat 8 i.val) zone group) = true → s.site.recs.oven i = none →
      s.site.recs.discovered.find? (fun x => decide (x.serial = d.serial)) = some d →
      ∃ o : Oven,
        exec (.admitOven d.serial (BitVec.ofNat 8 i.val) zone group) s = .next (s.answer 0x01#8 .ok [] { s.site with
          recs := { s.site.recs with
            discovered := s.site.recs.discovered.filter fun x => decide (x.serial ≠ d.serial)
            ovens := s.site.recs.ovens.set i (some o), persist := s.site.recs.persist.mark (.oven i) } })
          ∧ o.serial = d.serial ∧ o.model = d.model ∧ o.firmware = d.firmware ∧ o.zone.val = min 3 zone.toNat
          ∧ o.group.val = min 7 group.toNat ∧ o.lifecycle = .addressing ∧ o.step = some .assign ∧ o.served = false
          ∧ o.unreachable = false ∧ o.activity = .idle ∧ o.cook = none ∧ o.capability = none ∧ o.retireForced = false
          ∧ o.lastHeard = s.site.env.minute
          ∧ o.soil = { score := 0, residue := 0, hygiene := s.site.env.soil.reload, carry := 0 }
          ∧ o.obligation = none ∧ o.hostHold = none ∧ o.untracked = none ∧ o.carried = [] ∧ o.refused = [] ∧ o.missed = 0
          ∧ o.tag = none)
    ∧ (∀ (x : Serial) (slot zone group : Byte) (s : State), s.takesLive (.admitOven x slot zone group) = true →
      let refused (why : Status) : Prop := exec (.admitOven x slot zone group) s = .next (s.answer 0x01#8 why [] s.site)
      let found := ∃ d, d ∈ s.site.recs.discovered ∧ d.serial = x
      (24 ≤ slot.toNat → refused .badValue) ∧ (slot.toNat ≤ 23 → ¬found → refused .notFound)
        ∧ ∀ (i : Fin 24) (o : Oven), slot.toNat = i.val → found → s.site.recs.oven i = some o → refused .inUse)
    ∧ (∀ (x : Serial) (s : State),
      let r := s.site.recs
      let found := ∃ d, d ∈ r.discovered ∧ d.serial = x
      (s.takesLive (.reject x) = true → found → r.ignored.length < 8 →
        exec (.reject x) s = .next (s.answer 0x02#8 .ok [] { s.site with
          recs := { r with discovered := r.discovered.filter fun d => decide (d.serial ≠ x), ignored := r.ignored ++ [x] } }))
        ∧ (s.takesLive (.reject x) = true → found → 8 ≤ r.ignored.length →
            exec (.reject x) s = .next (s.answer 0x02#8 .noSpace [] s.site))
        ∧ (s.takesLive (.reject x) = true → ¬found → exec (.reject x) s = .next (s.answer 0x02#8 .notFound [] s.site))
        ∧ (s.takesLive .clearIgnored = true →
            exec .clearIgnored s = .next (s.answer 0x03#8 .ok [] { s.site with recs := { r with ignored := [] } })))
    ∧ (∀ (i : Fin 24) (o : Oven) (s : State), s.site.recs.oven i = some o →
      let slot : Byte := BitVec.ofNat 8 i.val
      let r := s.site.recs
      (s.takesLive (.retry slot) = true → o.lifecycle = .failed →
        exec (.retry slot) s = .next (s.answer 0x04#8 .ok [] { s.site with
          recs := (r.putOven i (some { o with lifecycle := .addressing, step := some .assign, missed := 0 })).mark (.oven i) }))
      ∧ (s.takesLive (.retry slot) = true → o.lifecycle ≠ .failed →
          exec (.retry slot) s = .next (s.answer 0x04#8 .wrongState [] s.site))
      ∧ (s.takesLive (.resync slot) = true → (o.lifecycle = .loading ∨ o.lifecycle = .inService) →
          exec (.resync slot) s = .next (s.answer 0x30#8 .ok [] { s.site with
            recs := r.putOven i (some { o with step := some .capsReq }) }))
      ∧ (s.takesLive (.clearRefused slot) = true → o.refused = [] →
          exec (.clearRefused slot) s = .next (s.answer 0x31#8 .ok [] s.site))
      ∧ (s.takesLive (.clearRefused slot) = true → o.refused ≠ [] →
          exec (.clearRefused slot) s = .next (s.answer 0x31#8 .ok [] { s.site with
            recs := Recs.tellHolds s.site.env r ((r.putOven i (some { o with refused := [] })).retarget s.site.env i) })))

/-- HOLD_OVEN sets HOST_HOLD with the strength asked for, HARD for any code but SOFT, and RELEASE_OVEN removes it (R20);
CLEAR_UNTRACKED sets the untracked severity to none (R134); SET_OVEN writes zone and group as its mask gives, a new group bringing
a new target, and while the member is ACTIVATING it is refused when its mask names the zone (R19, R75), also with the value that
the oven has: the model's choice (log 37). A mask that names neither field answers the zone and group as they stand: the model's
choice (log 10). Each marks the OVEN index, and the change of hold reasons is told to the neighbours (R136). -/
def Obligations.HoldAndPlacementRequestsWriteTheRecord : Prop :=
  ∀ (i : Fin 24) (o : Oven) (s : State), s.site.recs.oven i = some o →
    let slot : Byte := BitVec.ofNat 8 i.val
    let r := s.site.recs
    let e := s.site.env
    let told (r' : Recs) : Site := { s.site with recs := Recs.tellHolds e r r' }
    let written (o' : Oven) : Recs := (r.putOven i (some o')).mark (.oven i)
    (∀ code : Byte, s.takesLive (.holdOven slot code) = true →
      exec (.holdOven slot code) s = .next (s.answer 0x06#8 .ok [] (told (written { o with hostHold := some (decide (code ≠ 1#8)) }))))
    ∧ (s.takesLive (.releaseOven slot) = true →
        exec (.releaseOven slot) s = .next (s.answer 0x07#8 .ok [] (told (written { o with hostHold := none }))))
    ∧ (s.takesLive (.clearUntracked slot) = true →
        exec (.clearUntracked slot) s = .next (s.answer 0x4D#8 .ok [] (told (written { o with untracked := none }))))
    ∧ (∀ mask zone group : Byte, s.takesLive (.setOven slot mask zone group) = true →
        let z := mask.getLsbD 0
        let g := mask.getLsbD 1
        let o' := { o with
          zone := if z = true then zoneClamped zone.toNat else o.zone, group := if g = true then groupClamped group.toNat else o.group }
        (z = true → r.activating i = true → exec (.setOven slot mask zone group) s = .next (s.answer 0x05#8 .wrongState [] s.site))
        ∧ (z = false → g = false →
            exec (.setOven slot mask zone group) s = .next (s.answer 0x05#8 .ok (u8 o.zone.val ++ u8 o.group.val) s.site))
        ∧ ((z = true ∨ g = true) → (z = true → r.activating i = false) →
            ∃ out, exec (.setOven slot mask zone group) s
              = .next (s.answer 0x05#8 .ok out (told (if g = true then (written o').retarget e i else written o')))))

/-- What the neighbours do when hold reasons change (R136) leaves every setting-like part of the records: every oven record
but the fields that Oven.settled drops, the recipes, the discovery and ignore lists, the stop latches and the bus master;
and where no reason of any slot changed it leaves everything.

Recomputing every target, with the loading tests that follow it (R8, R75), changes no recipe, no campaign, no stop latch,
no list of the fleet table and nothing of the bus master. -/
def Obligations.HoldChangesAndTargetsHaveTheirFrame : Prop :=
  (∀ (e : Env) (before after : Recs),
      (let t := Recs.tellHolds e before after
       (∀ i : Fin 24, (t.oven i).map Oven.settled = (after.oven i).map Oven.settled) ∧ t.recipes = after.recipes
        ∧ t.discovered = after.discovered ∧ t.ignored = after.ignored ∧ t.latches = after.latches ∧ t.obm = after.obm)
      ∧ ((∀ i : Fin 24, before.reasons i = after.reasons i) → Recs.tellHolds e before after = after))
    ∧ (∀ (e : Env) (r : Recs),
      let t := r.retargetAll e
      t.recipes = r.recipes ∧ t.latches = r.latches ∧ t.discovered = r.discovered ∧ t.ignored = r.ignored ∧ t.obm = r.obm
        ∧ t.campaign = r.campaign)

/-- HOLD_OVEN with HARD holds the oven HARD and with SOFT at least SOFT, whatever follows from it (R20, R135). -/
def Obligations.HostHoldHoldsTheOven : Prop :=
  ∀ (i : Fin 24) (o : Oven) (code : Byte) (s : State), s.site.recs.oven i = some o →
    s.takesLive (.holdOven (BitVec.ofNat 8 i.val) code) = true →
    ∃ r : Recs, exec (.holdOven (BitVec.ofNat 8 i.val) code) s = .next (s.answer 0x06#8 .ok [] { s.site with recs := r })
      ∧ (code ≠ 1#8 → r.strength i = .hard) ∧ (code = 1#8 → r.strength i ≠ .none)
      ∧ ∃ o', r.oven i = some o' ∧ o'.hostHold = some (decide (code ≠ 1#8)) ∧ o'.lifecycle = o.lifecycle ∧ o'.soil = o.soil

/-- RETIRE with force of a record that is not yet RETIRING frees its slot at once (R21, R22); without force an idle
IN_SERVICE oven with no ACTIVATING member waits in RETIRING with step RELEASE, its obligation and carried list gone; one
that cooks waits in RETIRING without a step. A slot that is free is refused with NOT_FOUND. -/
def Obligations.RetireFreesOrReleases : Prop :=
  ∀ (i : Fin 24) (o : Oven) (s : State),
    let slot : Byte := BitVec.ofNat 8 i.val
    (s.takesLive (.retire slot 1#8) = true → s.site.recs.oven i = some o → o.lifecycle ≠ .retiring →
      ∃ r : Recs, exec (.retire slot 1#8) s = .next (s.answer 0x08#8 .ok [] { s.site with recs := r }) ∧ r.oven i = none
        ∧ r.latches = s.site.recs.latches ∧ r.discovered = s.site.recs.discovered ∧ r.ignored = s.site.recs.ignored)
    ∧ (s.takesLive (.retire slot 0#8) = true → s.site.recs.oven i = some o → o.lifecycle = .inService → o.activity = .idle →
        o.unreachable = false → s.site.recs.activating i = false →
        ∃ (r : Recs) (o' : Oven), exec (.retire slot 0#8) s = .next (s.answer 0x08#8 .ok [] { s.site with recs := r })
          ∧ r.oven i = some o' ∧ o'.lifecycle = .retiring ∧ o'.step = some .release ∧ o'.obligation = none ∧ o'.carried = []
          ∧ o'.serial = o.serial)
    ∧ (s.takesLive (.retire slot 0#8) = true → s.site.recs.oven i = some o → o.lifecycle = .inService → o.activity = .cooking →
        ∃ (r : Recs) (o' : Oven), exec (.retire slot 0#8) s = .next (s.answer 0x08#8 .ok [] { s.site with recs := r })
          ∧ r.oven i = some o' ∧ o'.lifecycle = .retiring ∧ o'.step = none ∧ o'.serial = o.serial)
    ∧ (s.takesLive (.retire slot 0#8) = true → s.site.recs.oven i = none →
        exec (.retire slot 0#8) s = .next (s.answer 0x08#8 .notFound [] s.site))

/-! ## Bus and site settings -/

/-- The settings without an effect of their own: each is clamped, stored and returned, and the SETTINGS index is marked even
when nothing changes (R26, R91, R107, R126). That a route code above 3 stores BOTH is the model's choice (log 11).

The settings that other blocks act on at once: a reserve that falls, a limit or an activation flag of the current mode, a
threshold, the lock delay and the arbiter setting. Each stores its clamped value, marks SETTINGS, returns the value, and in
the LIVE phase brings the checks that its rule names (R45, R46, R91, R107). That a reserve that falls runs the arbiter before the
activation check is the model's choice (log 9). In the RESTORE phase it brings none (R124; for the activation check log 8), and
SET_ARBITER still sets the working first-priority slot. -/
def Obligations.SettingWritesClampStoreAndBringTheirChecks : Prop :=
  (∀ (v : BitVec 16) (s : State),
      let e := s.site.env
      let stored (e' : Env) : Site := { env := e', recs := s.site.recs.mark .settings }
      (s.takes (.setSettingDiscovery v) = true →
        exec (.setSettingDiscovery v) s
          = .next (s.answer 0x11#8 .ok (u8 (min 255 v.toNat)) (stored { e with discovery := min 255 v.toNat })))
      ∧ (s.takes (.setSettingSoil 0x01#8 v) = true →
          exec (.setSettingSoil 0x01#8 v) s = .next (s.answer 0x11#8 .ok (u8 (min 15 v.toNat))
            (stored { e with soil := { e.soil with wConvection := min 15 v.toNat } })))
      ∧ (s.takes (.setSettingSoil 0x0E#8 v) = true →
          exec (.setSettingSoil 0x0E#8 v) s = .next (s.answer 0x11#8 .ok (u16 v.toNat)
            (stored { e with soil := { e.soil with creditHeavy := v.toNat } })))
      ∧ (s.takes (.setSettingCleaning 0x0F#8 v) = true →
          exec (.setSettingCleaning 0x0F#8 v) s = .next (s.answer 0x11#8 .ok (u16 (max 10 (min 2880 v.toNat)))
            (stored { e with clean := { e.clean with graceLight := max 10 (min 2880 v.toNat) } })))
      ∧ (s.takes (.setSettingCleaning 0x13#8 v) = true →
          exec (.setSettingCleaning 0x13#8 v) s = .next (s.answer 0x11#8 .ok (u8 (max 5 (min 240 v.toNat)))
            (stored { e with clean := { e.clean with window := max 5 (min 240 v.toNat) } })))
      ∧ (∀ code : Byte, s.takes (.setSettingSoil code v) = true →
          (∀ y out, e.soil.write code.toNat v.toNat = some (y, out) → (code.toNat ≤ 6 ∨ 12 ≤ code.toNat) →
            exec (.setSettingSoil code v) s = .next (s.answer 0x11#8 .ok out (stored { e with soil := y })))
          ∧ (∀ y out, e.soil.write code.toNat v.toNat = some (y, out) → code = 7#8 →
            exec (.setSettingSoil code v) s = .next (s.answer 0x11#8 .ok out
              { env := { e with soil := y }, recs := (s.site.recs.mark .settings).clampHygiene y.reload }))
          ∧ (e.soil.write code.toNat v.toNat = none →
            exec (.setSettingSoil code v) s = .next (s.answer 0x11#8 .badValue [] s.site)))
      ∧ (∀ code : Byte, s.takes (.setSettingCleaning code v) = true →
          (∀ y out, e.clean.write code.toNat v.toNat = some (y, out) → code ≠ 0x14#8 →
            exec (.setSettingCleaning code v) s = .next (s.answer 0x11#8 .ok out (stored { e with clean := y })))
          ∧ (e.clean.write code.toNat v.toNat = none →
            exec (.setSettingCleaning code v) s = .next (s.answer 0x11#8 .badValue [] s.site)))
      ∧ (∀ (m : Mode) (field : Byte), s.takes (.setProfile (BitVec.ofNat 8 m.code) field v) = true →
          (∀ y out, (e.profiles.get m).write field.toNat v.toNat = some (y, out) → (field ≠ 0#8 ∧ field ≠ 1#8 ∨ m ≠ e.mode) →
            exec (.setProfile (BitVec.ofNat 8 m.code) field v) s
              = .next (s.answer 0x1B#8 .ok out (stored { e with profiles := e.profiles.put m y })))
          ∧ (field = 6#8 → exec (.setProfile (BitVec.ofNat 8 m.code) field v) s
              = .next (s.answer 0x1B#8 .ok [if m = .closed then 0#8 else 1#8] s.site))
          ∧ (7 ≤ field.toNat → exec (.setProfile (BitVec.ofNat 8 m.code) field v) s
              = .next (s.answer 0x1B#8 .badValue [] s.site)))
      ∧ ∀ (k : Fin 32) (route : Byte), s.takes (.setRoute (BitVec.ofNat 8 k.val) route) = true →
          let t : Route := if route = 0#8 then .local else if route = 1#8 then .remote else .both
          exec (.setRoute (BitVec.ofNat 8 k.val) route) s
            = .next (s.answer 0x48#8 .ok (u8 t.code) (stored { e with routes := e.routes.set k t })))
    ∧ (∀ (s : State), s.site.env.phase = .live →
      let e := s.site.env
      let r := s.site.recs
      let marked := r.mark .settings
      let after (e' : Env) (f : Recs → Recs) : Site := { env := e', recs := Recs.tellHolds e' marked (f marked) }
      (∀ (z : Fin 4) (v : Byte), s.takes (.setReserve (BitVec.ofNat 8 z.val) v) = true →
        let n := min 6 v.toNat
        let e' : Env := { e with reserves := e.reserves.set z n }
        exec (.setReserve (BitVec.ofNat 8 z.val) v) s = .next (s.answer 0x1C#8 .ok (u8 n)
          (if n < e.reserves[z] then after e' fun r => (r.arbiter e').activationCheck e' else { env := e', recs := marked })))
      ∧ (∀ (m : Mode) (v : BitVec 16), m = e.mode →
          (s.takes (.setProfile (BitVec.ofNat 8 m.code) 0#8 v) = true →
            let n := min 8 v.toNat
            let e' : Env := { e with profiles := e.profiles.put m { e.profiles.get m with limit := n } }
            exec (.setProfile (BitVec.ofNat 8 m.code) 0#8 v) s
              = .next (s.answer 0x1B#8 .ok (u8 n) (after e' fun r => r.limitCheck e')))
          ∧ (s.takes (.setProfile (BitVec.ofNat 8 m.code) 1#8 v) = true →
            let on := decide (v ≠ 0#16)
            let e' : Env := { e with profiles := e.profiles.put m { e.profiles.get m with activate := on } }
            exec (.setProfile (BitVec.ofNat 8 m.code) 1#8 v) s
              = .next (s.answer 0x1B#8 .ok (flag on) (after e' fun r => r.activationCheck e'))))
      ∧ (∀ (code : Byte) (v : BitVec 16) (y : SoilSettings) (out : List Byte), 8 ≤ code.toNat → code.toNat ≤ 11 →
          s.takes (.setSettingSoil code v) = true → e.soil.write code.toNat v.toNat = some (y, out) →
          let e' : Env := { e with soil := y }
          exec (.setSettingSoil code v) s = .next (s.answer 0x11#8 .ok out
            (after e' fun r => slots.foldl (fun r i => r.evaluateInService e' i) r)))
      ∧ (∀ v : BitVec 16, s.takes (.setSettingCleaning 0x14#8 v) = true →
          let n := min 1440 v.toNat
          let e' : Env := { e with clean := { e.clean with lockDelay := n } }
          exec (.setSettingCleaning 0x14#8 v) s = .next (s.answer 0x11#8 .ok (u16 n)
            (after e' fun r => (slots.foldl (fun r i => r.lockTest e' i) r).arbiter e')))
      ∧ (∀ (m : ArbiterMode) (slot : Byte), s.takes (.setArbiter (BitVec.ofNat 8 m.code) slot) = true →
          let p : Fin 24 := Fin.ofNat 24 (min 23 slot.toNat)
          let e' : Env := { e with clean := { e.clean with arbiter := m, first := p } }
          exec (.setArbiter (BitVec.ofNat 8 m.code) slot) s = .next (s.answer 0x40#8 .ok (u8 m.code ++ u8 p.val)
            { env := e', recs := Recs.arbiter e' { marked with first := p } })))
    ∧ (∀ (s : State), s.site.env.phase = .restore →
      let e := s.site.env
      let marked := s.site.recs.mark .settings
      (∀ (z : Fin 4) (v : Byte), s.takes (.setReserve (BitVec.ofNat 8 z.val) v) = true →
        exec (.setReserve (BitVec.ofNat 8 z.val) v) s = .next (s.answer 0x1C#8 .ok (u8 (min 6 v.toNat))
          { env := { e with reserves := e.reserves.set z (min 6 v.toNat) }, recs := marked }))
      ∧ (∀ (m : Mode) (field : Byte) (v : BitVec 16) (y : Profile) (out : List Byte),
          s.takes (.setProfile (BitVec.ofNat 8 m.code) field v) = true → (e.profiles.get m).write field.toNat v.toNat = some (y, out) →
          exec (.setProfile (BitVec.ofNat 8 m.code) field v) s
            = .next (s.answer 0x1B#8 .ok out { env := { e with profiles := e.profiles.put m y }, recs := marked }))
      ∧ (∀ (code : Byte) (v : BitVec 16) (y : SoilSettings) (out : List Byte), code ≠ 7#8 →
          s.takes (.setSettingSoil code v) = true → e.soil.write code.toNat v.toNat = some (y, out) →
          exec (.setSettingSoil code v) s = .next (s.answer 0x11#8 .ok out { env := { e with soil := y }, recs := marked }))
      ∧ (∀ (code : Byte) (v : BitVec 16) (y : CleanSettings) (out : List Byte),
          s.takes (.setSettingCleaning code v) = true → e.clean.write code.toNat v.toNat = some (y, out) →
          exec (.setSettingCleaning code v) s = .next (s.answer 0x11#8 .ok out { env := { e with clean := y }, recs := marked }))
      ∧ (∀ (m : ArbiterMode) (slot : Byte), s.takes (.setArbiter (BitVec.ofNat 8 m.code) slot) = true →
          let p : Fin 24 := Fin.ofNat 24 (min 23 slot.toNat)
          exec (.setArbiter (BitVec.ofNat 8 m.code) slot) s = .next (s.answer 0x40#8 .ok (u8 m.code ++ u8 p.val)
            { env := { e with clean := { e.clean with arbiter := m, first := p } }, recs := { marked with first := p } })))

/-- Threshold writes keep the four thresholds strictly ascending (R92), and a write to H clamps the hygiene counters above it
and no other value (R93): whatever the value written, from thresholds in order. -/
def Obligations.SoilSettingWritesKeepTheThresholdsAscending : Prop :=
  ∀ (code v : Nat) (x : SoilSettings), x.inRange = true → v ≤ 65535 →
    (∀ y out, x.write code v = some (y, out) → y.inRange = true)
    ∧ (x.write code v = none ↔ code = 0 ∨ 15 ≤ code)
    ∧ ∀ (h : Nat) (r : Recs) (i : Fin 24), ((r.clampHygiene h).oven i)
        = (r.oven i).map fun o => { o with soil := { o.soil with hygiene := min h o.soil.hygiene } }

/-! ## Clock, mode and schedule -/

/-- SET_CLOCK stores the minute and the clamped offset, the fraction takes 0 and the clock becomes valid; the mode takes the
scheduled mode when the schedule applies and no override is in force; no boundary is reached (R44, R49).

SET_MODE puts the mode in force with the override flag set, and when it differs MODE_CHANGED latches and the CLS and the
UPE check (R51, R52), the CLS first: the model's choice (log 9); a code that names no mode is refused. CLEAR_OVERRIDE clears the flag and puts the scheduled mode in
force, and with no override changes nothing (R51). -/
def Obligations.ClockAndModeRequestsSetTheEnvironment : Prop :=
  (∀ (m : BitVec 32) (offset : BitVec 16) (s : State), s.takes (.setClock m offset) = true →
      let e' : Env := { s.site.env with
        minute := m, offset := min 1439 offset.toNat, fraction := 0, clockValid := true }
      let mode := if e'.overridden then e'.mode else (scheduledMode e'.schedule ((m + BitVec.ofNat 32 e'.offset).toNat % 1440)).getD e'.mode
      ∃ r : Recs, exec (.setClock m offset) s = .next (s.answer 0x18#8 .ok
          (u32 m.toNat ++ u16 e'.offset ++ u16 ((m + BitVec.ofNat 32 e'.offset).toNat % 1440)) { env := { e' with mode := mode }, recs := r })
        ∧ r.latches = s.site.recs.latches ∧ r.recipes = s.site.recs.recipes ∧ r.obm = s.site.recs.obm
        ∧ (mode ≠ s.site.env.mode → r.latched.getLsbD Cause.modeChanged.number = true))
    ∧ (∀ s : State,
      let e := s.site.env
      (∀ m : Mode, s.takes (.setMode (BitVec.ofNat 8 m.code)) = true →
        let e' : Env := { e with overridden := true, mode := m }
        (m = e.mode → exec (.setMode (BitVec.ofNat 8 m.code)) s
          = .next (s.answer 0x19#8 .ok (u8 m.code) { s.site with env := e' }))
        ∧ (m ≠ e.mode → ∃ r : Recs, exec (.setMode (BitVec.ofNat 8 m.code)) s
            = .next (s.answer 0x19#8 .ok (u8 m.code) { env := e', recs := r })
            ∧ r = s.site.recs.withHolds e' (fun r => ((r.latch .modeChanged).limitCheck e').activationCheck e')))
      ∧ (∀ code : Byte, 3 ≤ code.toNat → s.takes (.setMode code) = true →
          exec (.setMode code) s = .next (s.answer 0x19#8 .badValue [] s.site))
      ∧ (s.takes .clearOverride = true → e.overridden = false → exec .clearOverride s = .next (s.answer 0x1A#8 .ok [] s.site))
      ∧ (s.takes .clearOverride = true → e.overridden = true →
          ∃ r : Recs, exec .clearOverride s = .next (s.answer 0x1A#8 .ok []
            { env := { e with overridden := false, mode := (e.scheduledNow).getD e.mode }, recs := r })))

/-- The schedule requests keep the list ascending with one entry a minute (R47): SCHEDULE_SET puts its entry in, SCHEDULE_REMOVE
takes the entry of a minute out, SCHEDULE_CLEAR empties the list; each marks the SCHEDULE index. A ninth entry is refused with
NO_SPACE and a minute without an entry with NOT_FOUND. -/
def Obligations.ScheduleRequestsEditTheList : Prop :=
  ∀ (minute : BitVec 16) (mode : Mode) (s : State), scheduleOk s.site.env.schedule = true →
    let l := s.site.env.schedule
    let m := min 1439 minute.toNat
    let set : Instr := .scheduleSet minute (BitVec.ofNat 8 mode.code)
    (s.takes set = true → ((∃ x ∈ l, x.minute = m) ∨ l.length < 8) →
      ∃ st : Site, exec set s = .next (s.answer 0x1D#8 .ok (u16 m ++ u8 mode.code) st)
        ∧ scheduleOk st.env.schedule = true ∧ st.recs.persist.get .schedule = true
        ∧ ∀ y : SchedEntry, y ∈ st.env.schedule ↔ y = { minute := m, mode := mode } ∨ (y ∈ l ∧ y.minute ≠ m))
    ∧ (s.takes set = true → (∀ x ∈ l, x.minute ≠ m) → l.length = 8 → exec set s = .next (s.answer 0x1D#8 .noSpace [] s.site))
    ∧ (s.takes (.scheduleRemove minute) = true → (∃ x ∈ l, x.minute = minute.toNat) →
      ∃ st : Site, exec (.scheduleRemove minute) s = .next (s.answer 0x1E#8 .ok [] st)
        ∧ st.recs.persist.get .schedule = true ∧ st.env.schedule = l.filter fun y => decide (y.minute ≠ minute.toNat))
    ∧ (s.takes (.scheduleRemove minute) = true → (∀ x ∈ l, x.minute ≠ minute.toNat) →
        exec (.scheduleRemove minute) s = .next (s.answer 0x1E#8 .notFound [] s.site))
    ∧ (s.takes .scheduleClear = true →
        exec .scheduleClear s = .next (s.answer 0x1F#8 .ok []
          { env := { s.site.env with schedule := [] }, recs := s.site.recs.mark .schedule }))

/-- The scheduled mode at a minute of day (R48): that of the entry with the greatest minute not above it; when every
entry's minute is above it, that of the entry with the greatest minute in the list; one entry schedules its mode all day. -/
def Obligations.ScheduledModeIsTheGoverningEntrys : Prop :=
  ∀ (l : List SchedEntry) (m : Nat), scheduleOk l = true →
    (∀ x ∈ l, x.minute ≤ m → (∀ y ∈ l, y.minute ≤ m → y.minute ≤ x.minute) → scheduledMode l m = some x.mode)
      ∧ (∀ x ∈ l, (∀ y ∈ l, m < y.minute) → (∀ y ∈ l, y.minute ≤ x.minute) → scheduledMode l m = some x.mode)
      ∧ (∀ x, l = [x] → scheduledMode l m = some x.mode) ∧ (l ≠ [] → (scheduledMode l m).isSome = true)

/-- MINUTE_EXPIRY raises the site minute by one, wrapping, and returns the fraction to 0; a schedule entry of the new minute
of day ends the override and puts its mode in force (R43, R50). SCHEDULE_BOUNDARY is the minute expiry that reaches a boundary,
and changes nothing when the next minute reaches none (R50; log 4). -/
def Obligations.MinuteExpiryAdvancesTheClock : Prop :=
  ∀ s : State, s.site.env.held = false →
    let e' : Env := { s.site.env with fraction := 0, minute := s.site.env.minute + 1 }
    let governed (e : Env) : Env :=
      if e.clockValid = true ∧ e.schedule ≠ [] then
        match entryAt e.schedule ((e.minute + BitVec.ofNat 32 e.offset).toNat % 1440) with
        | some x => { e with overridden := false, mode := x.mode }
        | none => e
      else e
    let reaches := e'.clockValid = true ∧ ∃ x ∈ e'.schedule, x.minute = (e'.minute + BitVec.ofNat 32 e'.offset).toNat % 1440
    (∃ r : Recs, exec .minuteExpiry s = .next { s with site := { env := governed e', recs := r } }
        ∧ r.latches = s.site.recs.latches ∧ r.recipes = s.site.recs.recipes ∧ r.obm = s.site.recs.obm
        ∧ r.discovered = s.site.recs.discovered
        ∧ (reaches → exec .scheduleBoundary s = .next { s with site := { env := governed e', recs := r } }))
      ∧ (¬reaches → exec .scheduleBoundary s = .next s)

/-! ## The recipe library -/

/-- RECIPE_WRITE of a pair that no record has, with an id free of DRAFTs and of versions at or above it, to the lowest free slot
with room in the pool: the slot holds a DRAFT with the fields clamped and the name made printable, the RECIPE index is marked,
and nothing else changes (R60, R61). A write to the pair of a present DRAFT replaces it in its slot, and to one of a PUBLISHED or
WITHDRAWN record is refused with STALE_VERSION. No stage or more than 12 is refused with BAD_LENGTH (R60). -/
def Obligations.RecipeWriteStoresADraft : Prop :=
  ∀ (id : BitVec 16) (version factor mask rank len : Byte) (name : List Byte) (raw : List RawStage) (s : State),
    let c : Instr := .recipeWrite id version factor mask rank len name raw
    let r := s.site.recs
    s.takesLive c = true → id ≠ 0#16 → id.toNat ≤ 4095 → version ≠ 0#8 →
    (∀ (ts : List Stage) (k : Fin 128), 1 ≤ raw.length → raw.length ≤ 12 → readStages raw = some ts →
      (∀ (j : Fin 128) (y : Recipe), r.recipe j = some y → y.id = id.toNat → y.state ≠ .draft ∧ y.version < version.toNat) →
      r.freeLibrary = some k → ts.length ≤ r.poolFree →
      ∃ (x : Recipe) (out : List Byte), exec c s
          = .next (s.answer 0x28#8 .ok out { s.site with recs := (r.putRecipe k (some x)).mark (.recipe k) })
        ∧ x.id = id.toNat ∧ x.version = version.toNat ∧ x.state = .draft ∧ x.factor = min 15 factor.toNat ∧ x.mask = mask
        ∧ x.rank = rank.toNat ∧ x.stages = ts ∧ x.name = ((padTo 20 name).take len.toNat).map printable)
    ∧ (∀ (ts : List Stage) (k : Fin 128) (y : Recipe), 1 ≤ raw.length → raw.length ≤ 12 → readStages raw = some ts →
      r.findRecipe id.toNat version.toNat = some k → r.recipe k = some y →
      (y.state = .draft → ts.length ≤ (r.putRecipe k none).poolFree → ∃ (x : Recipe) (out : List Byte), exec c s
          = .next (s.answer 0x28#8 .ok out { s.site with recs := (r.putRecipe k (some x)).mark (.recipe k) })
        ∧ x.id = id.toNat ∧ x.version = version.toNat ∧ x.state = .draft ∧ x.stages = ts)
      ∧ (y.state ≠ .draft → exec c s = .next (s.answer 0x28#8 .staleVersion [] s.site)))
    ∧ (raw.length = 0 ∨ 12 < raw.length → exec c s = .next (s.answer 0x28#8 .badLength [] s.site))

/-- What a raw stage brought into range holds (R56): the temperature, fan and times within their ranges and the humidity its mode
allows; a mode or end code that names nothing is none. -/
def Obligations.StagesAreBroughtIntoRange : Prop :=
  ∀ raw : RawStage,
    (∀ t, readStage raw = some t →
      30 ≤ t.setpoint ∧ t.setpoint ≤ 300 ∧ 1 ≤ t.fan ∧ t.fan ≤ 5 ∧ t.humidity ≤ 100
        ∧ ((t.mode = .convection ∨ t.mode = .hold) → t.humidity = 0) ∧ (t.mode = .steam → t.humidity = 100)
        ∧ (∀ d, t.stop = .time d → 1 ≤ d ∧ d ≤ 14400)
        ∧ (∀ core cap, t.stop = .probe core cap → 20 ≤ core ∧ core ≤ 99 ∧ 60 ≤ cap ∧ cap ≤ 14400)
        ∧ (30 ≤ raw.setpoint.toNat → raw.setpoint.toNat ≤ 300 → t.setpoint = raw.setpoint.toNat))
    ∧ (readStage raw = none ↔ 4 ≤ raw.modeEnd.toNat % 16 ∨ 2 ≤ raw.modeEnd.toNat / 16)

/-- The requests on a present record (R62 to R65): a DRAFT that no oven carries and no cook names is discarded; a DRAFT is
published, and the id's PUBLISHED record becomes WITHDRAWN or, when nothing holds it, is released; a PUBLISHED record is withdrawn
or released; an assignment writes mask and rank, and its answer gives both as they then stand, also when its field mask names
neither. No other record changes. That answer, and the version withdrawn as an optional value in PUBLISH's, are the model's choice
(log 10). -/
def Obligations.RecipeRequestsMoveTheRecord : Prop :=
  ∀ (k : Fin 128) (x : Recipe) (id : BitVec 16) (version : Byte) (s : State),
    let r := s.site.recs
    let kept (r' : Recs) : Prop := ∀ j : Fin 128, j ≠ k → r'.recipe j = r.recipe j
    let idle := r.carrierCount x.id x.version = 0 ∧ r.cookCount x.id x.version = 0
    r.findRecipe id.toNat version.toNat = some k → r.recipe k = some x → id ≠ 0#16 → id.toNat ≤ 4095 → version ≠ 0#8 →
    (s.takesLive (.recipeDiscard id version) = true → x.state = .draft → idle →
      exec (.recipeDiscard id version) s = .next (s.answer 0x29#8 .ok [] { s.site with
        recs := (r.putRecipe k none).mark (.recipe k) }))
    ∧ (s.takesLive (.recipeDiscard id version) = true → x.state = .draft → ¬idle →
        exec (.recipeDiscard id version) s = .next (s.answer 0x29#8 .inUse [] s.site))
    ∧ (s.takesLive (.recipePublish id version) = true → x.state = .draft → r.findState x.id .published = none →
      ∃ r' : Recs, exec (.recipePublish id version) s = .next (s.answer 0x2A#8 .ok [0#8, 0#8] { s.site with recs := r' })
        ∧ r'.recipe k = some { x with state := .published } ∧ kept r')
    ∧ (∀ (j : Fin 128) (y : Recipe), s.takesLive (.recipePublish id version) = true → x.state = .draft →
        r.findState x.id .published = some j → r.recipe j = some y →
      ∃ r' : Recs, exec (.recipePublish id version) s = .next (s.answer 0x2A#8 .ok ([1#8] ++ u8 y.version) { s.site with recs := r' })
        ∧ r'.recipe k = some { x with state := .published }
        ∧ r'.recipe j = (if r.carrierCount y.id y.version = 0 ∧ r.cookCount y.id y.version = 0 then none
            else some { y with state := .withdrawn })
        ∧ ∀ n : Fin 128, n ≠ k → n ≠ j → r'.recipe n = r.recipe n)
    ∧ (s.takesLive (.recipeWithdraw id version) = true → x.state = .published →
      ∃ r' : Recs, exec (.recipeWithdraw id version) s = .next (s.answer 0x2B#8 .ok [] { s.site with recs := r' })
        ∧ r'.recipe k = (if r.carrierCount x.id x.version = 0 ∧ r.cookCount x.id x.version = 0 then none
            else some { x with state := .withdrawn }) ∧ kept r')
    ∧ (∀ fields mask rank : Byte, s.takesLive (.recipeAssign id version fields mask rank) = true → x.state ≠ .withdrawn →
      let y := { x with
        mask := if fields.getLsbD 0 = true then mask else x.mask, rank := if fields.getLsbD 1 = true then rank.toNat else x.rank }
      ∃ r' : Recs, exec (.recipeAssign id version fields mask rank) s
          = .next (s.answer 0x2C#8 .ok ([y.mask] ++ u8 y.rank) { s.site with recs := r' })
        ∧ r'.recipe k = some y ∧ kept r')

/-- The target of an oven with a capability (R74): at most K pairs, each of a PUBLISHED record of its group that fits its stage
limit and that it has not refused; and a record that qualifies and is left out comes after every record taken in, by rank and
then id. -/
def Obligations.TargetHoldsTheBestFittingRecipes : Prop :=
  ∀ (r : Recs) (o : Oven) (c : Capability), o.capability = some c →
    let qualifies (x : Recipe) : Prop := (∃ k : Fin 128, r.recipe k = some x) ∧ x.state = .published
      ∧ x.mask.getLsbD o.group.val = true ∧ x.stages.length ≤ c.maxStages ∧ (x.id, x.version) ∉ o.refused
    let t := (r.targetOf o).pairs
    t.length ≤ min 40 c.capacity
      ∧ (∀ p ∈ t, ∃ x, qualifies x ∧ p = (x.id, x.version))
      ∧ ∀ x, qualifies x → (x.id, x.version) ∉ t →
          t.length = min 40 c.capacity ∧ ∀ p ∈ t, ∃ y, qualifies y ∧ p = (y.id, y.version)
            ∧ (y.rank < x.rank ∨ (y.rank = x.rank ∧ y.id ≤ x.id))

/-! ## Soil -/

/-- The temperature band of a clamped setpoint and the mode weight of a mode code, an unknown code read as COMBI (R94, R96).

What one stage adds (R97): with n its soil and t the residue plus n, the score takes the quotient of t by 960, or 65535 when
the sum is larger, and the residue takes the remainder in every case; within the ranges n is at most 12,960,000 and the
increment at most 13,500; the hygiene counter and the carry are untouched, and stages are taken in report order. -/
def Obligations.BandWeightAndStageGiveTheSoil : Prop :=
  ((∀ t : Nat, 30 ≤ t → t ≤ 300 →
      (t ≤ 119 → band t = 1) ∧ (120 ≤ t → t ≤ 179 → band t = 2) ∧ (180 ≤ t → t ≤ 229 → band t = 3) ∧ (230 ≤ t → band t = 4))
      ∧ (∀ t : Nat, (t < 30 → band t = band 30) ∧ (300 < t → band t = band 300))
      ∧ ∀ x : SoilSettings, x.weight 0 = x.wConvection ∧ x.weight 1 = x.wSteam ∧ x.weight 2 = x.wCombi ∧ x.weight 3 = x.wHold
          ∧ ∀ code, 4 ≤ code → x.weight code = x.wCombi)
    ∧ (∀ (x : SoilSettings) (factor : Nat) (v : Soil) (c : CookStage),
      let n := min 14400 c.seconds * x.weight c.mode * band c.setpoint * factor
      let t := v.residue + n
      let w := soilStage x factor v c
      w.residue = t % 960 ∧ w.score = min 65535 (v.score + t / 960) ∧ w.hygiene = v.hygiene ∧ w.carry = v.carry
        ∧ (v.score + t / 960 ≤ 65535 → 960 * w.score + w.residue = 960 * v.score + v.residue + n)
        ∧ (x.inRange = true → factor ≤ 15 → v.residue ≤ 959 → n ≤ 12960000 ∧ t ≤ 12960959 ∧ t / 960 ≤ 13500)
        ∧ ∀ cs : List CookStage, (c :: cs).foldl (soilStage x factor) v = cs.foldl (soilStage x factor) w)

/-- A report charges the hygiene counter with its cooking time (R98): with T the sum of the durations, at most 172,800 s for 12
stages, the minutes charged are (q + T) / 60, the carry takes the remainder, and the counter stops at 0; every stage counts,
whatever its mode, setpoint, weight or factor. -/
def Obligations.ReportChargesTheHygieneCounter : Prop :=
  ∀ (x : SoilSettings) (factor : Nat) (stages : List CookStage) (v : Soil),
    let total := (stages.map fun c => min 14400 c.seconds).sum
    let w := soilAfter x factor stages v
    (stages.length ≤ 12 → total ≤ 172800) ∧ w.carry = (v.carry + total) % 60
      ∧ ((v.carry + total) / 60 ≤ v.hygiene → w.hygiene + (v.carry + total) / 60 = v.hygiene)
      ∧ (v.hygiene < (v.carry + total) / 60 → w.hygiene = 0)

/-- The demanded level of an evaluation (R99), what a completion credits (R101) and what a waive leaves (R102). -/
def Obligations.EvaluationCreditAndWaiveFollowTheTables : Prop :=
  (∀ (x : SoilSettings) (v : Soil), x.t1 < x.t2 → x.t2 < x.t3 → x.t3 < x.t4 →
    (x.demanded v = some .intensive ↔ x.t4 ≤ v.score) ∧ (x.demanded v = some .heavy ↔ x.t3 ≤ v.score ∧ v.score < x.t4)
      ∧ (x.demanded v = some .medium ↔ x.t2 ≤ v.score ∧ v.score < x.t3)
      ∧ (x.demanded v = some .light ↔ v.score < x.t2 ∧ (x.t1 ≤ v.score ∨ v.hygiene = 0))
      ∧ (x.demanded v = none ↔ v.score < x.t1 ∧ v.hygiene ≠ 0))
    ∧ (∀ (x : SoilSettings) (l : Level) (v : Soil),
        let w := x.credited l v
        w.hygiene = x.reload ∧ w.carry = 0
          ∧ (l = .intensive → w.score = 0 ∧ w.residue = 0) ∧ (l ≠ .intensive → w.residue = v.residue)
          ∧ (l = .light → w.score = v.score - x.creditLight) ∧ (l = .medium → w.score = v.score - x.creditMedium)
          ∧ (l = .heavy → w.score = v.score - x.creditHeavy))
    ∧ ∀ (e : Env) (i : Fin 24) (o : Oven) (r : Recs), r.oven i = some o →
        r.waiveSoil e i = (r.putOven i (some { o with soil :=
          { score := if e.soil.t1 - 1 < o.soil.score then e.soil.t1 - 1 else o.soil.score, residue := o.soil.residue
            hygiene := e.soil.reload, carry := 0 } })).mark (.oven i)

/-- ADJUST_SOIL writes the score and evaluates an IN_SERVICE oven (R103); EXTEND sets the deadline and clears overdue and locked
with OVERDUE_LOCK, and runs the arbiter, but refuses a minute at or before the current one (R121); WAIVE removes an obligation
that is not RUNNING and takes the soil waive (R122), and is refused with WRONG_STATE for a RUNNING one. -/
def Obligations.SoilAndObligationRequestsWriteTheRecord : Prop :=
  ∀ (i : Fin 24) (o : Oven) (s : State), s.site.recs.oven i = some o →
    let slot : Byte := BitVec.ofNat 8 i.val
    let e := s.site.env
    let r := s.site.recs
    let told (r' : Recs) : Site := { s.site with recs := Recs.tellHolds e r r' }
    (∀ score : BitVec 16, s.takesLive (.adjustSoil slot score) = true →
      let r' := (r.putOven i (some { o with soil := { o.soil with score := score.toNat } })).mark (.oven i)
      ∃ out, exec (.adjustSoil slot score) s = .next (s.answer 0x38#8 .ok out
        (told (if o.lifecycle = .inService then r'.evaluate e i else r'))))
    ∧ (∀ (b : Obligation) (m : BitVec 32), o.obligation = some b → s.takesLive (.extend slot m) = true →
      (e.minute.toNat < m.toNat → exec (.extend slot m) s = .next (s.answer 0x41#8 .ok (u32 m.toNat)
        (told (((r.putOven i (some { o with
          obligation := some { b with deadline := m, overdue := false, locked := false }
          overdueLock := false })).mark (.oven i)).arbiter e))))
      ∧ (m.toNat ≤ e.minute.toNat → exec (.extend slot m) s = .next (s.answer 0x41#8 .badValue [] s.site)))
    ∧ (∀ b : Obligation, o.obligation = some b → s.takesLive (.waive slot) = true →
      (b.state = .running → exec (.waive slot) s = .next (s.answer 0x42#8 .wrongState [] s.site))
      ∧ (b.state ≠ .running → ∃ (r' : Recs) (o' : Oven),
          exec (.waive slot) s = .next (s.answer 0x42#8 .ok [] { s.site with recs := r' })
            ∧ r'.oven i = some o' ∧ o'.obligation = none ∧ o'.overdueLock = false ∧ o'.soil.score = min o.soil.score (e.soil.t1 - 1)
            ∧ o'.soil.residue = o.soil.residue ∧ o'.soil.hygiene = e.soil.reload ∧ o'.soil.carry = 0
            ∧ r'.recipes = r.recipes ∧ r'.latches = r.latches))

/-! ## Cleaning obligations and grants -/

/-- A demanded level raises an obligation on an oven without one, and upgrades a lower one keeping its raised-at minute and the
earlier deadline; one equal or higher is left as it is (R108). Before the arbiter run that follows.

A grant issued takes the level, the site minute and the next sequence number, which wraps to 1, and owes its telegram (R114);
a grant that ends returns its obligation to DUE, with a revocation owed exactly when its telegram was SENT, or one was owed
(R115, R116). -/
def Obligations.DemandsAndGrantsAreMadeAndEndedAsStated : Prop :=
  (∀ (e : Env) (i : Fin 24) (o : Oven) (l : Level) (r : Recs), r.oven i = some o →
      let due := e.minute + BitVec.ofNat 32 (e.clean.grace l)
      let put (b : Obligation) : Recs :=
        (((r.putOven i (some { o with obligation := some b })).mark (.oven i)).latch .cleanDue).arbiter e
      (o.obligation = none → r.demand e i l = put
        { level := l, raisedAt := e.minute, deadline := due, state := .due, overdue := false, locked := false, aborts := 0
          grant := none })
      ∧ ∀ b, o.obligation = some b →
          (b.level.code < l.code → r.demand e i l = put
            { b with level := l, deadline := if due.toNat < b.deadline.toNat then due else b.deadline })
          ∧ (l.code ≤ b.level.code → r.demand e i l = r))
    ∧ (∀ (e : Env) (i : Fin 24) (o : Oven) (b : Obligation) (r : Recs), r.oven i = some o → o.obligation = some b →
      ((r.issueGrant e i).oven i = some { o with
          obligation := some { b with
            state := .granted, grant := some { level := b.level, issuedAt := e.minute, sequence := r.sequence } }
          grantTelegram := .owed }
        ∧ (r.issueGrant e i).sequence = if 4294967295 ≤ r.sequence then 1 else r.sequence + 1)
      ∧ (b.state = .granted → ∀ t : Recs, t = r.endGrant e i →
          ∃ (o' : Oven) (b' : Obligation), t.oven i = some o' ∧ o'.obligation = some b' ∧ b'.state = .due ∧ b'.grant = none
            ∧ b'.level = b.level ∧ b'.deadline = b.deadline ∧ o'.grantTelegram = .none
            ∧ (o'.revokeOwed = true ↔ o.revokeOwed = true ∨ o.grantTelegram = .sent)))

/-- An arbiter run in the LIVE phase, whole (R111, R113, R114). The candidates are the eligible obligations, in the order overdue
before not, higher level before lower, then distance from P upward, all as they stand at the start of the run. A candidate is
granted exactly when the grants outstanding, the ovens cleaning and the candidates granted before it are below the cleaning limit,
and the ready ovens of its zone that are left after those grants and its own are at least the zone's reserve, or the mode is
CLOSED: one that fails the reserve test is passed over, and once the limit is reached none follows. Each grant takes the sequence
numbers in the order of the walk; P moves in ROTATE mode to the slot after the one granted last, and stays in FIXED mode and in a
run that grants nothing. Nothing else changes but the marks of the indices. In the RESTORE phase no run is made.

From that it follows that no grant ends, that the grants with the ovens cleaning are never taken beyond the limit, and that in
TRADING and PREP no zone is left with fewer ready ovens than its reserve that had as many. -/
def Obligations.ArbiterGrantsTheEligibleWithinLimitAndReserve : Prop :=
  ∀ (e : Env) (r : Recs),
    let t := r.arbiter e
    (e.phase = .restore → t = r)
      ∧ t = { r with ovens := t.ovens, first := t.first, sequence := t.sequence, persist := t.persist }
      ∧ (r.grantsOut < t.grantsOut → t.grantsOut + t.cleaningCount ≤ e.profile.limit)
      ∧ (∀ z : Fin 4, e.mode ≠ .closed → e.reserves[z] ≤ r.readyCount z → e.reserves[z] ≤ t.readyCount z)
      ∧ (e.phase = .live →
        let granted (i : Fin 24) : Bool := r.eligible i && t.oblIs i .granted
        let before (i : Fin 24) : List (Fin 24) := slots.filter fun j => granted j && r.ahead j i
        (∀ (i : Fin 24) (o : Oven) (b : Obligation), r.oven i = some o → o.obligation = some b → r.eligible i = true →
          let n := (before i).length
          let taken := (before i).countP fun j => r.ovenIs j fun p => decide (p.zone = o.zone) && r.isReady j p
          (granted i = true ↔ r.grantsOut + r.cleaningCount + n < e.profile.limit
            ∧ (e.mode = .closed ∨ e.reserves[o.zone] ≤ r.readyCount o.zone - taken - (if r.isReady i o = true then 1 else 0)))
          ∧ (granted i = true → t.persist.get (.oven i) = true ∧ t.oven i = some { o with
              grantTelegram := .owed
              obligation := some { b with
                state := .granted
                grant := some { level := b.level, issuedAt := e.minute, sequence := Nat.repeat sequenceAfter n r.sequence } } }))
        ∧ (∀ i : Fin 24, granted i = false → t.oven i = r.oven i ∧ t.persist.get (.oven i) = r.persist.get (.oven i))
        ∧ ((∀ i : Fin 24, granted i = false) → t = r)
        ∧ (∀ i : Fin 24, granted i = true → (∀ j : Fin 24, granted j = true → j ≠ i → r.ahead j i = true) →
            t.sequence = Nat.repeat sequenceAfter ((before i).length + 1) r.sequence
            ∧ t.first = if e.clean.arbiter = .rotate then i + 1 else r.first))

/-- After a limit check in the LIVE phase the grants outstanding are within the room: the limit less the ovens cleaning, or zero.
Where they exceeded it, as many are left as the room holds, and they are the oldest: a grant that is kept has every older one
kept, by the issue sequence numbers counted back from the next one through the wrap (R112, R114). -/
def Obligations.LimitCheckBringsGrantsWithinTheRoom : Prop :=
  ∀ (e : Env) (r : Recs), e.phase = .live →
    let t := r.limitCheck e
    let room := e.profile.limit - r.cleaningCount
    let age (n : Nat) : Nat := (r.sequence + 4294967295 - n) % 4294967295
    t.grantsOut ≤ e.profile.limit - t.cleaningCount ∧ (room < r.grantsOut → t.grantsOut = room)
      ∧ ∀ (i j : Fin 24) (b d : Obligation) (g h : Grant), r.obligation i = some b → b.state = .granted → b.grant = some g →
          r.obligation j = some d → d.state = .granted → d.grant = some h → age g.sequence < age h.sequence →
          t.oblIs i .granted = true → t.oblIs j .granted = true

/-- The events of an obligation at a site in the LIVE phase, whole: it becomes overdue (R109), it is locked (R110), its grant
lapses (R115), its cleaning is aborted for the third time (R119): back to DUE with its count at 0, a HYGIENE ticket at DEGRADED,
the overdue and lock tests, the arbiter, and what a change of activity to IDLE brings: the arbiter, a waiting retirement and the
activation check, in the model's order (log 9). Each is then told to the neighbours (R136). The model's choice (log 4): the first
three rows take effect whenever the site minute allows it, and THIRD_ABORT is the abort of a RUNNING obligation that has 2.

A CLEAN_START that a valid reply with more events to follow brings makes the activity CLEANING, and an obligation in DUE or
GRANTED becomes RUNNING without its grant and its lock (R117). A CLEAN_END that is COMPLETE credits the soil and ends the
obligation, a SENT grant then owing its revocation; an evaluation of the soil that remains may raise a new one (R118). One that is
ABORTED gives no credit and counts against a RUNNING obligation alone, the third with a HYGIENE report (R119). -/
def Obligations.ObligationEventsTakeTheirEffect : Prop :=
  (∀ (i : Fin 24) (o : Oven) (b : Obligation) (s : State), s.running = true → s.site.recs.oven i = some o → o.obligation = some b →
    let e := s.site.env
    let r := s.site.recs
    let told (r' : Recs) : State := s.withRecs (Recs.tellHolds e r r')
    let written (o' : Oven) : Recs := (r.putOven i (some o')).mark (.oven i)
    (b.state ≠ .running → b.overdue = false → b.deadline.toNat ≤ e.minute.toNat →
      exec (.obligationOverdue i) s = .next (told ((((written { o with obligation := some { b with overdue := true } }).latch
        .cleanOverdue).raise e i 29 .notice).arbiter e)))
    ∧ (e.clean.lockDelay ≠ 0 → b.overdue = true → b.locked = false → b.state ≠ .running →
        (b.deadline + BitVec.ofNat 32 e.clean.lockDelay).toNat ≤ e.minute.toNat →
      exec (.obligationLock i) s = .next (told (((written { o with obligation := some { b with locked := true } }).putOven i
        (some { o with obligation := some { b with locked := true }, overdueLock := true })).raise e i 29 .degraded)))
    ∧ (∀ g : Grant, b.state = .granted → b.grant = some g → (g.issuedAt + BitVec.ofNat 32 e.clean.window).toNat ≤ e.minute.toNat →
      exec (.grantLapse i) s = .next (told ((r.endGrant e i).arbiter e)))
    ∧ (b.state = .running → b.aborts = 2 →
        let r1 := (written { o with activity := .idle, obligation := some { b with state := .due, aborts := 0 } }).raise e i 29 .degraded
        let r2 := ((r1.overdueTest e i).lockTest e i).arbiter e
        exec (.thirdAbort i) s
            = .next (told (if o.activity = .idle then r2 else ((r2.arbiter e).retireIfIdle e i).activationCheck e))
          ∧ (o.lifecycle ≠ .retiring → ∃ (r' : Recs) (o' : Oven) (b' : Obligation),
            exec (.thirdAbort i) s = .next (s.withRecs r') ∧ r'.oven i = some o' ∧ o'.obligation = some b' ∧ b'.state ≠ .running
              ∧ b'.aborts = 0 ∧ b'.deadline = b.deadline ∧ o'.soil = o.soil ∧ o'.activity = .idle ∧ r'.reported i 29 .degraded)))
    ∧ (∀ (i : Fin 24) (o : Oven) (x : Exchange) (status p : List Byte) (tag : Bool) (s : State), s.brings i o x status tag p →
      let e := s.site.env
      (1 ≤ p.length → ∃ (r : Recs) (o' : Oven), exec (.exchangeSuccess (eventFrame i x status 3 tag p)) s = .next (s.withRecs r)
        ∧ r.oven i = some o' ∧ o'.activity = .cleaning ∧ o'.soil = o.soil ∧ (o.obligation = none → o'.obligation = none)
        ∧ ∀ b, o.obligation = some b → ∃ b', o'.obligation = some b' ∧ b'.state = .running ∧ b'.level = b.level
            ∧ b'.deadline = b.deadline ∧ b'.aborts = b.aborts
            ∧ (b.state ≠ .running → b'.grant = none ∧ b'.locked = false ∧ o'.overdueLock = false ∧ o'.grantTelegram = .none))
      ∧ (2 ≤ p.length → o.lifecycle ≠ .retiring →
        let soil := e.soil.credited (levelRead (numAt p 0 1)) o.soil
        ∃ (r : Recs) (o' : Oven), exec (.exchangeSuccess (eventFrame i x status 4 tag p)) s = .next (s.withRecs r)
          ∧ r.oven i = some o' ∧ o'.activity = .idle
          ∧ (numAt p 1 1 = 0 → o'.soil = soil
            ∧ (o.lifecycle ≠ .inService ∨ e.soil.demanded soil = none → o'.obligation = none)
            ∧ (∀ d, o.lifecycle = .inService → e.soil.demanded soil = some d →
                ∃ b', o'.obligation = some b' ∧ b'.level = d ∧ b'.raisedAt = e.minute ∧ b'.aborts = 0)
            ∧ (o.obligation ≠ none → o.grantTelegram = .sent → o.unreachable = false → o'.revokeOwed = true))
          ∧ (numAt p 1 1 ≠ 0 → o'.soil = o.soil ∧ (o.obligation = none → o'.obligation = none)
            ∧ ∀ b, o.obligation = some b → ∃ b', o'.obligation = some b' ∧ b'.level = b.level ∧ b'.deadline = b.deadline
                ∧ (b.state ≠ .running → b'.aborts = b.aborts)
                ∧ (b.state = .running → b'.state ≠ .running ∧ b'.aborts = (if b.aborts < 2 then b.aborts + 1 else 0)
                    ∧ (2 ≤ b.aborts → r.reported i 29 .degraded)))))

/-! ## Tickets -/

/-- ACK and DISPATCH, in every state and on every route (R132).

RESOLVE ends a ticket that is not RESOLVED, a STOP ticket that the oven has not cleared only with force, and the change of hold
reasons is told (R133, R135, R136; in the order of log 9); CLOSE removes a RESOLVED ticket (R133). -/
def Obligations.TicketRequestsMoveAndRemoveTheTicket : Prop :=
  (∀ (k : Fin 64) (t : Ticket) (number : BitVec 16) (s : State), number ≠ 0#16 → s.site.recs.ticketOf number.toNat = some k →
      s.site.recs.ticket k = some t →
      let put (t' : Ticket) : Site := { s.site with recs := (s.site.recs.putTicket k (some t')).mark (.ticket k) }
      (s.takesLive (.ack number) = true →
        (t.state = .opened → exec (.ack number) s
          = .next (s.answer 0x49#8 .ok [] (put { t with state := .acked, repeated := false })))
        ∧ (t.state ≠ .opened → exec (.ack number) s = .next (s.answer 0x49#8 .wrongState [] s.site)))
      ∧ (s.takesLive (.dispatch number) = true →
        (t.route = .local → exec (.dispatch number) s = .next (s.answer 0x4A#8 .wrongRoute [] s.site))
        ∧ (t.route ≠ .local → (t.state = .opened ∨ t.state = .acked) → exec (.dispatch number) s
            = .next (s.answer 0x4A#8 .ok [] (put { t with state := .dispatched, repeated := false })))
        ∧ (t.route ≠ .local → (t.state = .dispatched ∨ t.state = .resolved) →
            exec (.dispatch number) s = .next (s.answer 0x4A#8 .wrongState [] s.site))))
    ∧ (∀ (k : Fin 64) (t : Ticket) (number : BitVec 16) (s : State), number ≠ 0#16 → s.site.recs.ticketOf number.toNat = some k →
      s.site.recs.ticket k = some t →
      let r := s.site.recs
      let e := s.site.env
      let told (r' : Recs) : Site := { s.site with recs := Recs.tellHolds e r r' }
      (∀ force : Byte, s.takesLive (.resolve number force) = true →
        let needsForce := t.severity = .stop ∧ t.cleared = false
        (t.state ≠ .resolved → (needsForce → force.getLsbD 0 = true) → exec (.resolve number force) s
          = .next (s.answer 0x4B#8 .ok (u32 e.minute.toNat)
              (told ((r.putTicket k (some { t with state := .resolved, resolvedAt := some e.minute })).mark (.ticket k)))))
        ∧ (t.state = .resolved ∨ (needsForce ∧ force.getLsbD 0 = false) →
            exec (.resolve number force) s = .next (s.answer 0x4B#8 .wrongState [] s.site)))
      ∧ (s.takesLive (.close number) = true →
        (t.state = .resolved → exec (.close number) s
          = .next (s.answer 0x4C#8 .ok [] { s.site with recs := (r.putTicket k none).mark (.ticket k) }))
        ∧ (t.state ≠ .resolved → exec (.close number) s = .next (s.answer 0x4C#8 .wrongState [] s.site))))

/-- A report for an occupied slot (R127, R128): it merges into the live ticket of its oven and class, counting it and never
lowering its severity; without one it opens a ticket in the lowest free place with the route of its class; in a full table it
takes the place of the RESOLVED ticket with the lowest resolved-at, then number (one restored without a resolved-at counts as
minute 0, log 13), and with none RESOLVED it is kept on the oven; a report for a free slot is dropped.

The number that a new ticket takes is the first from the next ticket number on, counted upward with 1 after 65535, that no present
ticket holds, and the next ticket number follows it (R129). 65 steps always find one.

A FAULT that a valid reply with more events to follow brings is such a report (R127); a FAULT_CLEAR marks the live ticket cleared,
and resolves it below STOP (R130). -/
def Obligations.ReportsAndNumbersMakeTickets : Prop :=
  (∀ (e : Env) (i : Fin 24) (o : Oven) (k : Fin 32) (code : BitVec 16) (sev : Severity) (org : Origin) (r : Recs),
      (r.oven i = none → r.report e i k code sev org = r)
      ∧ (∀ (j : Fin 64) (t : Ticket), r.oven i = some o → r.liveAt i k = some j → r.ticket j = some t →
          (r.report e i k code sev org).ticket j = some { t with
            occurrences := min 255 (t.occurrences + 1), lastAt := e.minute, code := code, cleared := false
            repeated := t.repeated || decide (t.state = .opened)
            severity := if t.severity.code < sev.code then sev else t.severity }
          ∧ ∀ n : Fin 64, n ≠ j → (r.report e i k code sev org).ticket n = r.ticket n)
      ∧ (∀ j : Fin 64, r.oven i = some o → r.liveAt i k = none → r.freePlace = some j → 1 ≤ r.nextTicket → r.nextTicket ≤ 65535 →
          let n := r.freeNumber 65 r.nextTicket
          1 ≤ n ∧ n ≤ 65535 ∧ (∀ (m : Fin 64) (u : Ticket), r.ticket m = some u → u.number ≠ n)
          ∧ (r.report e i k code sev org).ticket j = some (openedTicket e i k code sev org n)
          ∧ (r.report e i k code sev org).nextTicket = (if n = 65535 then 1 else n + 1)
          ∧ ∀ m : Fin 64, m ≠ j → (r.report e i k code sev org).ticket m = r.ticket m)
      ∧ (∀ (j : Fin 64) (t : Ticket), r.oven i = some o → r.liveAt i k = none → r.freePlace = none →
          r.ticket j = some t → t.state = .resolved →
          (∀ (m : Fin 64) (u : Ticket), m ≠ j → r.ticket m = some u → u.state = .resolved →
            (t.resolvedAt.getD 0#32).toNat < (u.resolvedAt.getD 0#32).toNat
              ∨ (t.resolvedAt.getD 0#32 = u.resolvedAt.getD 0#32 ∧ t.number < u.number)) →
          (r.report e i k code sev org).ticket j
              = some (openedTicket e i k code sev org ((r.putTicket j none).freeNumber 65 r.nextTicket))
            ∧ ∀ m : Fin 64, m ≠ j → (r.report e i k code sev org).ticket m = r.ticket m)
      ∧ (r.oven i = some o → r.liveAt i k = none → r.freePlace = none → (∀ j t, r.ticket j = some t → t.state ≠ .resolved) →
          let r' := r.report e i k code sev org
          r'.oven i = some { o with untracked := if severityCode o.untracked < sev.code then some sev else o.untracked }
            ∧ (∀ j : Fin 24, j ≠ i → r'.oven j = r.oven j) ∧ r'.tickets = r.tickets ∧ r'.nextTicket = r.nextTicket
            ∧ r'.persist.get (.oven i) = true ∧ r'.latched.getLsbD Cause.ticketLocal.number = true))
    ∧ (∀ (r : Recs) (n : Nat), 1 ≤ n → n ≤ 65535 →
      let m := r.freeNumber 65 n
      let counted (k : Nat) : Nat := (n - 1 + k) % 65535 + 1
      let taken (x : Nat) : Prop := ∃ (j : Fin 64) (t : Ticket), r.ticket j = some t ∧ t.number = x
      ∃ d : Nat, d ≤ 64 ∧ m = counted d ∧ ¬taken m ∧ ∀ k, k < d → taken (counted k))
    ∧ (∀ (i : Fin 24) (o : Oven) (x : Exchange) (status p : List Byte) (tag : Bool) (s : State), s.brings i o x status tag p →
      let e := s.site.env
      let r := s.site.recs
      let k : Fin 32 := Fin.ofNat 32 (min 27 (numAt p 0 1))
      (4 ≤ p.length →
        let code := BitVec.ofNat 16 (numAt p 1 2)
        let sev := faultSeverity (numAt p 3 1)
        let fault : Instr := .exchangeSuccess (eventFrame i x status 5 tag p)
        (∀ (j : Fin 64) (t : Ticket), r.liveAt i k = some j → r.ticket j = some t → ∃ r' : Recs, exec fault s = .next (s.withRecs r')
          ∧ r'.ticket j = some { t with
              occurrences := min 255 (t.occurrences + 1), lastAt := e.minute, code := code, cleared := false
              repeated := t.repeated || decide (t.state = .opened)
              severity := if t.severity.code < sev.code then sev else t.severity })
        ∧ ∀ j : Fin 64, r.liveAt i k = none → r.freePlace = some j → o.unreachable = false →
          ∃ r' : Recs, exec fault s = .next (s.withRecs r')
            ∧ r'.ticket j = some (openedTicket e i k code sev .oven (r.freeNumber 65 r.nextTicket)))
      ∧ (1 ≤ p.length → ∀ (j : Fin 64) (t : Ticket), r.liveAt i k = some j → r.ticket j = some t →
        ∃ (r' : Recs) (t' : Ticket), exec (.exchangeSuccess (eventFrame i x status 6 tag p)) s = .next (s.withRecs r')
          ∧ r'.ticket j = some t' ∧ (t.severity = .stop → t' = { t with cleared := true })
          ∧ (t.severity ≠ .stop → t'.cls = k → t' = { t with cleared := true, state := .resolved, resolvedAt := some e.minute })))

/-! ## Update campaigns -/

/-- CAMPAIGN_DEFINE creates a campaign in OPEN with its values clamped, and is refused with IN_USE when one is present; DISMISS
removes one that is FINISHED or CANCELLED and is refused with WRONG_STATE otherwise, and a restored member that is still ACTIVATING
takes its oven's UPDATE reason with it, which R135 has present only so long (log 46); CHUNK_PUT moves a wanted index to the window
with its bytes beyond L at zero, at the end of it: the window holds its chunks in the order of their CHUNK_PUTs, the model's choice
(log 11); an index that is not wanted is refused with NOT_WANTED (R147, R153). -/
def Obligations.CampaignIsDefinedFedAndDismissed : Prop :=
  ∀ s : State,
    let r := s.site.recs
    (∀ (id model : BitVec 16) (fw : Firmware) (length crc : BitVec 32) (size : Byte),
      let c : Instr := .campaignDefine id model fw length crc size
      s.takesLive c = true →
      (r.campaign = none → id ≠ 0#16 →
        let l := max 1 (min 524288 length.toNat)
        let m := max 1 (min 65534 model.toNat)
        let w := max 1 (min 8 size.toNat)
        let x : Campaign :=
          { id := id.toNat, model := m, firmware := fw, length := l, crc := crc, waveSize := w, state := .opened, members := []
            phase := .none, cursor := 0, wanted := [], window := [], repaired := [] }
        exec c s = .next (s.answer 0x58#8 .ok
          (u16 id.toNat ++ u16 m ++ firmwareBytes fw ++ u32 l ++ u32 crc.toNat ++ u8 w ++ u16 ((l + 127) / 128))
          { s.site with recs := { r with campaign := some x, persist := r.persist.mark .campaign } }))
      ∧ (r.campaign ≠ none → exec c s = .next (s.answer 0x58#8 .inUse [] s.site)))
    ∧ (∀ c : Campaign, r.campaign = some c →
        (s.takesLive .dismiss = true →
          (c.state = .finished ∨ c.state = .cancelled →
            let r1 : Recs := { r with
              campaign := none, persist := r.persist.mark .campaign
              ovens := Vector.ofFn fun i => if r.activating i = true then (r.oven i).map fun o => { o with updateHold := false } else r.oven i }
            let r' := Recs.tellHolds s.site.env r r1
            exec .dismiss s = .next (s.answer 0x5F#8 .ok [] { s.site with recs := r' })
              ∧ (∀ (i : Fin 24) (o' : Oven), r.activating i = true → r'.oven i = some o' → o'.updateHold = false)
              ∧ ((∀ i : Fin 24, r.activating i = false) → r' = { r with campaign := none, persist := r.persist.mark .campaign }))
          ∧ (c.state ≠ .finished → c.state ≠ .cancelled → exec .dismiss s = .next (s.answer 0x5F#8 .wrongState [] s.site)))
        ∧ (∀ (id index : BitVec 16) (data : List Byte), s.takesLive (.chunkPut id index data) = true → c.id = id.toNat →
            data.length = 128 →
            (index.toNat ∈ c.wanted → exec (.chunkPut id index data) s = .next (s.answer 0x60#8 .ok [] { s.site with
              recs := { r with campaign := some { c with
                wanted := c.wanted.filter fun g => decide (g ≠ index.toNat)
                window := c.window ++ [{ index := index.toNat
                                         data := (data.take (c.length - 128 * index.toNat)
                                           ++ List.replicate 128 0#8).take 128 }] } } }))
            ∧ (index.toNat ∉ c.wanted → exec (.chunkPut id index data) s = .next (s.answer 0x60#8 .notWanted [] s.site))))

/-- The requests on a present campaign, whole (R147, R148, R155, R163): ADD_MEMBER to an OPEN, RUNNING or PAUSED campaign,
START, PAUSE, RESUME and CANCEL in the states that take them, REMOVE_MEMBER of a member that is not ACTIVATING; START, PAUSE and
RESUME in another state are refused with WRONG_STATE. The shared operations named are those whose rules the requests end with.
CANCEL's telegrams and wave flags are those of log 26: a member of the wave or READY owes an abort, and no member keeps its wave
flag. -/
def Obligations.CampaignRequestsMoveTheCampaign : Prop :=
  ∀ (c : Campaign) (s : State), s.site.recs.campaign = some c →
    let r := s.site.recs
    let e := s.site.env
    let told (r' : Recs) : Site := { s.site with recs := Recs.tellHolds e r r' }
    let moved (x : CampaignState) : Recs := ({ r with campaign := some { c with state := x } }.mark .campaign).latch .campaign
    (∀ (i : Fin 24) (o : Oven), s.takesLive (.addMember (BitVec.ofNat 8 i.val)) = true → c.state = .opened →
        r.oven i = some o → c.member i = none →
      exec (.addMember (BitVec.ofNat 8 i.val)) s = .next (s.answer 0x59#8 .ok []
        { s.site with recs := { r with campaign := some { c with members := insertMember (newMember i) c.members } }.mark .campaign }))
    ∧ (∀ (i : Fin 24) (o : Oven), s.takesLive (.addMember (BitVec.ofNat 8 i.val)) = true → (c.state = .running ∨ c.state = .paused) →
        r.oven i = some o → c.member i = none →
      exec (.addMember (BitVec.ofNat 8 i.val)) s = .next (s.answer 0x59#8 .ok []
        (told (({ r with campaign := some { c with members := insertMember (newMember i) c.members } }.mark .campaign).admission e))))
    ∧ (∀ (i : Fin 24) (m : Member), s.takesLive (.removeMember (BitVec.ofNat 8 i.val)) = true →
        (c.state = .opened ∨ c.state = .running ∨ c.state = .paused) → c.member i = some m → m.state ≠ .activating →
      let owes := m.wave = true ∨ m.state = .transfer ∨ m.state = .repair ∨ m.state = .verify ∨ m.state = .ready
      let r1 : Recs := if owes then r.modOven i fun o => { o with abortOwed := some c.id } else r
      let r2 : Recs := { r1 with campaign := some { c with members := c.members.filter fun n => decide (n.slot ≠ i) } }.mark .campaign
      let r' := Recs.tellHolds e r (r2.waveEnd e).finishTest
      exec (.removeMember (BitVec.ofNat 8 i.val)) s = .next (s.answer 0x5A#8 .ok [] { s.site with recs := r' }) ∧ r'.member i = none)
    ∧ (s.takesLive .start = true →
        (c.state = .opened → exec .start s = .next (s.answer 0x5B#8 .ok [] (told ((moved .running).admission e))))
        ∧ (c.state ≠ .opened → exec .start s = .next (s.answer 0x5B#8 .wrongState [] s.site)))
    ∧ (s.takesLive .pause = true →
        (c.state = .running →
          let r1 := ({ r with campaign := some { c with state := .paused, wanted := [] } }.mark .campaign).latch .campaign
          exec .pause s = .next (s.answer 0x5C#8 .ok [] (told r1.endStreaming))
            ∧ ∃ c' : Campaign, (Recs.tellHolds e r r1.endStreaming).campaign = some c' ∧ c'.state = .paused ∧ c'.wanted = []
              ∧ c'.window = c.window ∧ c'.cursor = c.cursor)
        ∧ (c.state ≠ .running → exec .pause s = .next (s.answer 0x5C#8 .wrongState [] s.site)))
    ∧ (s.takesLive .resume = true →
        (c.state = .paused → exec .resume s = .next (s.answer 0x5D#8 .ok []
          (told (((((moved .running).endStreaming).topUp).admission e).activationCheck e))))
        ∧ (c.state ≠ .paused → exec .resume s = .next (s.answer 0x5D#8 .wrongState [] s.site)))
    ∧ (s.takesLive .cancel = true → (c.state = .opened ∨ c.state = .running ∨ c.state = .paused) →
        let left : Member → Bool := fun m => decide (m.state = .activating) || decide (m.state = .done) || decide (m.state = .failed)
        let owes (i : Fin 24) : Bool := c.members.any fun m => decide (m.slot = i) && (m.inWave || decide (m.state = .ready))
        let c' : Campaign := { c with
          state := if c.members.any (fun m => decide (m.state = .activating)) then .cancelling else .cancelled
          phase := .none, wanted := [], window := [], repaired := []
          members := c.members.map fun m => if left m = true then { m with wave := false }
            else { m with state := .failed, defer := none, fail := none, wave := false, owed := none } }
        let r1 : Recs := { r with
          campaign := some c'
          ovens := Vector.ofFn fun i => if owes i = true then (r.oven i).map fun o => { o with abortOwed := some c.id } else r.oven i }
        exec .cancel s = .next (s.answer 0x5E#8 .ok [] (told ((r1.mark .campaign).latch .campaign))))

/-- Admission of a RUNNING campaign between waves (R149). The QUEUED and DEFERRED members are examined in their order: one that
fails a test is DEFERRED with the first reason, one whose oven has the target firmware is DONE with ALREADY_CURRENT, and an
eligible one joins the wave while fewer than W before it have joined and is else QUEUED without a reason; any other member is
left. So the smaller of W and the number of eligible members join, those of the lowest slots; a member that joined owes
UPDATE_BEGIN with its counts at 0. The wave phase becomes FORMING exactly when one joined, and the finishing test follows (R163).
The last clause gives the tests in their order.

It is made in the LIVE phase: none before GO_LIVE is the model's reading (log 8). That the failure reason of an earlier attempt
stays on a member examined is the model's choice (log 45). -/
def Obligations.AdmissionFillsOneWave : Prop :=
  (∀ (e : Env) (r : Recs), (e.phase = .live → r.admission e = r.admissionCore) ∧ (e.phase = .restore → r.admission e = r))
  ∧ (∀ (r : Recs) (c : Campaign), r.campaign = some c → c.state = .running → c.phase = .none → (∀ m ∈ c.members, m.wave = false) →
    let waits (m : Member) : Prop := m.state = .queued ∨ m.state = .deferred
    let fits (m : Member) : Bool :=
      (decide (m.state = .queued) || decide (m.state = .deferred)) && decide (r.verdict c m.slot = .eligible)
    let joined (m : Member) : Member :=
      { m with state := .queued, defer := none, wave := true, beginTurns := 0, repairs := 0, gaps := [], complete := false
               owed := some .begin, timer := none, onLine := false, waits := false }
    let t := r.admissionCore
    ∃ c' : Campaign, t.campaign = some c' ∧ c'.members.length = c.members.length
      ∧ (∀ (n : Nat) (m m' : Member), c.members[n]? = some m → c'.members[n]? = some m' →
        let before := (c.members.take n).countP fits
        m'.slot = m.slot
        ∧ (¬waits m → m' = m)
        ∧ (waits m →
          (∀ d, r.verdict c m.slot = .defer d → m' = { m with state := .deferred, defer := some d })
          ∧ (r.verdict c m.slot = .already → m' = { m with state := .done, defer := some .alreadyCurrent })
          ∧ (r.verdict c m.slot = .eligible →
              m' = if before < c.waveSize then joined m else { m with state := .queued, defer := none })))
      ∧ (c'.members.countP fun m => m.wave) = min c.waveSize (c.members.countP fits)
      ∧ (c.members.Pairwise (fun m n => m.slot < n.slot) → ∀ m n : Member, m ∈ c'.members → m.wave = true → n ∈ c.members →
          fits n = true → n.slot < m.slot → ∃ n' ∈ c'.members, n'.slot = n.slot ∧ n'.wave = true)
      ∧ (c'.phase = .forming ↔ ∃ m ∈ c'.members, m.wave = true) ∧ (c'.phase = .forming ∨ c'.phase = .none)
      ∧ c'.state = (if (c'.members.all fun m => decide (m.state = .done) || decide (m.state = .failed)) = true then .finished
          else .running)
      ∧ c' = { c with members := c'.members, phase := c'.phase, state := c'.state }
      ∧ t = { r with campaign := some c', persist := t.persist, latched := t.latched }
      ∧ ((∃ m ∈ c.members, waits m ∧ r.verdict c m.slot = .already) ∨ c'.state = .finished → t = t.latch .campaign))
  ∧ (∀ (r : Recs) (c : Campaign) (i : Fin 24) (o : Oven), r.oven i = some o →
    r.verdict c i =
      if o.model ≠ c.model then .defer .model
      else if o.firmware = c.firmware then .already
      else if o.lifecycle ≠ .inService then .defer .notInService
      else if o.unreachable = true then .defer .unreachable
      else if r.strength i = .hard then .defer .held
      else if r.standing i = some .degraded ∨ r.standing i = some .stop then .defer .ticket
      else .eligible)

/-- The activation check (R158, R159). In the LIVE phase the lowest slot that meets the conditions of R158 is activated, and so is
the lowest of each zone where no grant ends in the run; only a member that met them, with no lower one of its zone that did, is
activated. It becomes ACTIVATING, owes UPDATE_ACTIVATE, has 600,000 ms on its timer, and its oven has the UPDATE reason and no
grant, with a revocation owed if its telegram was SENT. A zone that had at most one ACTIVATING oven keeps at most one, and where
no member meets the conditions nothing changes. A READY oven with a grant counts as R158 says, less one (log 25). In the RESTORE
phase no check is made (log 8). The check for one zone, as a retirement makes it (R163), activates in the LIVE phase the lowest slot
of that zone that meets the conditions, and no other.

Every step keeps the campaign within R143, R144 and R152: gap lists strictly ascending, of at most 32 indices, all chunks of the
image; at most 4 indices wanted or in the window, none twice. -/
def Obligations.ActivationKeepsOneOvenPerZone : Prop :=
  (∀ (e : Env) (r : Recs),
    let t := r.activationCheck e
    let meets (i : Fin 24) : Prop := r.mayActivate e i = true
    let new (i : Fin 24) : Prop := t.activating i = true ∧ r.activating i = false
    (∀ (i : Fin 24) (c : Campaign) (m : Member) (o : Oven), r.campaign = some c → r.member i = some m → r.oven i = some o →
      (meets i ↔ c.state = .running ∧ m.state = .ready ∧ m.waits = false ∧ e.profile.activate = true
        ∧ o.lifecycle = .inService ∧ o.unreachable = false ∧ o.activity = .idle ∧ r.strength i = .none
        ∧ r.standing i ≠ some .degraded ∧ r.standing i ≠ some .stop
        ∧ (∀ (j : Fin 24) (p : Oven), j ≠ i → r.oven j = some p → p.zone = o.zone → r.activating j = false)
        ∧ (e.mode = .closed ∨ e.reserves[o.zone] ≤ r.readyCount o.zone - 1)))
    ∧ (∀ i : Fin 24, meets i → ∃ m : Member, r.member i = some m ∧ m.state = .ready)
    ∧ (∀ i : Fin 24, r.activating i = true → t.activating i = true)
    ∧ (∀ (i : Fin 24) (m : Member) (o : Oven), new i → r.member i = some m → r.oven i = some o →
        meets i ∧ (∀ (j : Fin 24) (p : Oven), j < i → r.oven j = some p → p.zone = o.zone → ¬meets j)
        ∧ t.member i = some { m with
            state := .activating, owed := some .activate, timer := some 600000, onLine := false }
        ∧ t.persist.get .campaign = true
        ∧ ∃ o' : Oven, t.oven i = some o' ∧ o'.updateHold = true ∧ t.strength i ≠ .none ∧ t.oblIs i .granted = false
          ∧ (r.oblIs i .granted = true → o'.grantTelegram = .none ∧ (o.grantTelegram = .sent → o'.revokeOwed = true)))
    ∧ (∀ i : Fin 24, new i → ∃ (m : Member) (o : Oven), r.member i = some m ∧ r.oven i = some o)
    ∧ (∀ (i : Fin 24) (o : Oven), e.phase = .live → meets i → r.oven i = some o →
        ((∀ j : Fin 24, j < i → ¬meets j) → new i)
        ∧ ((∀ (j : Fin 24) (p : Oven), j < i → r.oven j = some p → p.zone = o.zone → ¬meets j) →
            (e.mode = .closed ∨ ∀ j : Fin 24, r.memberIs j .ready = true → r.oblIs j .granted = false) → new i))
    ∧ ((∀ z : Fin 4, (r.activatingIn z).length ≤ 1) → ∀ z : Fin 4, (t.activatingIn z).length ≤ 1)
    ∧ ((∀ i : Fin 24, ¬meets i) → t = r) ∧ (e.phase = .restore → t = r) ∧ (e.profile.activate = false → t = r)
    ∧ (∀ (z : Fin 4) (i : Fin 24) (o : Oven), r.oven i = some o →
        ((r.activationCheckIn e z).activating i = true ∧ r.activating i = false
          ↔ e.phase = .live ∧ o.zone = z ∧ meets i
            ∧ ∀ (j : Fin 24) (p : Oven), j < i → r.oven j = some p → p.zone = z → ¬meets j)))
  ∧ ∀ s t : State, s.site.recs.campaignInForm → step s = .next t → t.site.recs.campaignInForm

/-- The ends of a member's activation or attempt: the activation timer (R162), the third wave failure, whatever its flaw (R156),
the fifth begin turn (R150) and a repair count beyond 16 (R154), the last two while another member keeps the wave going. The row
of the timer takes any ACTIVATING member whatever its timer holds, and those of the limits stand at the counts one short of them:
the model's choice (log 4).

The update events that a valid reply with more events to follow brings: UPDATE_READY (R150), UPDATE_GAP (R154), UPDATE_COMPLETE
(R155), VERIFY_RESULT (R156, R160) and BOOTED, which ends an activation (R161) or restarts a record (R13). That UPDATE_READY with
OK withdraws an UPDATE_BEGIN still owed is log 40, and that a gap report with no index below N takes the later steps is log 41. -/
def Obligations.MemberEventsTakeTheirEffect : Prop :=
  (∀ (i : Fin 24) (o : Oven) (c : Campaign) (m : Member) (s : State), s.running = true → s.site.recs.oven i = some o →
    s.site.recs.campaign = some c → c.member i = some m →
    (m.state = .activating → o.lifecycle ≠ .retiring →
      ∃ (r : Recs) (m' : Member) (o' : Oven), exec (.activationTimeout i) s = .next (s.withRecs r) ∧ r.member i = some m'
        ∧ m'.state = .failed ∧ m'.fail = some .timeout ∧ m'.timer = none ∧ m'.owed = none ∧ r.oven i = some o'
        ∧ o'.updateHold = false ∧ o'.lifecycle = o.lifecycle ∧ o'.carried = o.carried ∧ r.reported i 30 .degraded)
    ∧ (∀ flaw : WaveFlaw, m.canFail flaw = true → m.attempts = 2 →
      ∃ (r : Recs) (m' : Member) (o' : Oven), exec (.memberFinalFailure i flaw) s = .next (s.withRecs r) ∧ r.member i = some m'
        ∧ m'.state = .failed ∧ m'.fail = some (failOfFlaw flaw) ∧ m'.attempts = 3 ∧ m'.wave = false ∧ r.oven i = some o'
        ∧ o'.abortOwed = some c.id ∧ r.latched.getLsbD Cause.campaign.number = true ∧ r.reported i 30 .degraded)
    ∧ (∀ k : Member, k ∈ c.members → k.slot ≠ i → k.state = .transfer →
      (m.state = .queued → m.wave = true → m.beginTurns = 4 →
        ∃ (r : Recs) (m' : Member) (o' : Oven), exec (.beginTurnsLimit i) s = .next (s.withRecs r) ∧ r.member i = some m'
          ∧ m'.state = .deferred ∧ m'.defer = some ((s.site.recs.deferralOf i).getD .unreachable) ∧ m'.wave = false
          ∧ m'.attempts = m.attempts ∧ r.oven i = some o' ∧ o'.abortOwed = some c.id)
      ∧ ∀ g : Nat, m.state = .repair → m.repairs = 16 → m.attempts ≤ 1 → g < c.chunks → g ∈ c.repaired →
        ∃ (r : Recs) (m' : Member) (o' : Oven), exec (.repairLimit i [g]) s = .next (s.withRecs r) ∧ r.member i = some m'
          ∧ m'.state = .queued ∧ m'.fail = some .repairLimit ∧ m'.attempts = m.attempts + 1 ∧ m'.wave = false
          ∧ r.oven i = some o' ∧ o'.abortOwed = some c.id))
    ∧ (∀ (i : Fin 24) (o : Oven) (x : Exchange) (status p : List Byte) (tag : Bool) (c : Campaign) (m : Member) (s : State),
      s.brings i o x status tag p → s.site.recs.campaign = some c → c.member i = some m →
      let takes (kind : Nat) (q : Recs → Oven → Campaign → Member → Prop) : Prop :=
        ∃ (r : Recs) (o' : Oven) (c' : Campaign) (m' : Member), exec (.exchangeSuccess (eventFrame i x status kind tag p)) s
          = .next (s.withRecs r) ∧ r.oven i = some o' ∧ r.campaign = some c' ∧ c'.member i = some m' ∧ q r o' c' m'
      let failed (why : FailReason) (r : Recs) (o' : Oven) (m' : Member) : Prop :=
        m'.fail = some why ∧ m'.attempts = m.attempts + 1 ∧ o'.abortOwed = some c.id
          ∧ (m.attempts = 2 → m'.state = .failed ∧ m'.owed = none ∧ r.reported i 30 .degraded)
      (m.state = .queued → m.wave = true → c.phase ≠ .none →
        (eventOf 8 p = some (.updateReady c.id true) → takes 8 fun _ _ c' m' => m'.state = .transfer ∧ m'.attempts = m.attempts
          ∧ m'.owed = (if c.phase = .repair then some .finish else none)
          ∧ c'.phase = (if c.phase = .forming then .streaming else c.phase)
          ∧ (c.phase = .forming → c.state = .running → c.wanted = [] → c.window = [] →
              c'.wanted = List.range (min 4 c.chunks) ∧ c'.cursor = min 4 c.chunks))
        ∧ (eventOf 8 p = some (.updateReady c.id false) → m.attempts ≤ 2 → takes 8 fun r o' _ m' => failed .refused r o' m'))
      ∧ ((m.state = .transfer ∨ m.state = .repair) →
        (∀ gs : List Nat, eventOf 9 p = some (.updateGap c.id gs) →
          let taken := gs.filter fun g => decide (g < c.chunks)
          let repairs := m.repairs + taken.countP fun g => decide (g ∈ c.repaired)
          let merged := mergeGaps m.gaps taken
          (repairs ≤ 16 → merged.length ≤ 32 → takes 9 fun _ _ _ m' => m'.repairs = repairs ∧ m'.complete = false
            ∧ (∀ g, g ∈ m'.gaps ↔ g ∈ m.gaps ∨ (g ∈ gs ∧ g < c.chunks)) ∧ m'.attempts = m.attempts
            ∧ m'.state = if m.state = .transfer ∧ c.phase = .repair then .repair else m.state)
          ∧ (16 < repairs → m.attempts ≤ 2 → takes 9 fun r o' _ m' => failed .repairLimit r o' m')
          ∧ (repairs ≤ 16 → 32 < merged.length → m.attempts ≤ 2 → takes 9 fun r o' _ m' => failed .gaps r o' m'))
        ∧ (eventOf 10 p = some (.updateComplete c.id) → takes 10 fun _ _ _ m' => m'.complete = true
            ∧ (c.phase = .repair ∧ m.gaps = [] → m'.state = .verify ∧ m'.owed = some .verify)
            ∧ (¬(c.phase = .repair ∧ m.gaps = []) → m'.state = m.state ∧ m'.owed = m.owed)))
      ∧ (∀ result : Nat, eventOf 11 p = some (.verifyResult c.id result) →
        (m.state = .verify →
          (result = 0 → takes 11 fun _ _ _ m' => (m'.state = .ready ∨ m'.state = .activating) ∧ m'.attempts = m.attempts)
          ∧ (result = 2 → takes 11 fun _ _ _ m' => m'.state = .verify ∧ m'.attempts = m.attempts)
          ∧ (result ≠ 0 → result ≠ 2 → m.attempts ≤ 2 → takes 11 fun r o' _ m' => failed .crc r o' m'))
        ∧ (m.state = .activating → result = 2 → takes 11 fun _ o' _ m' => m'.state = .ready ∧ m'.owed = none ∧ m'.timer = none
            ∧ o'.updateHold = false))
      ∧ (∀ fw : Firmware, eventOf 12 p = some (.booted fw) → m.state = .activating → o.lifecycle ≠ .retiring →
        takes 12 fun r o' _ m' => m'.state = (if fw = c.firmware then .done else .failed)
          ∧ (fw ≠ c.firmware → m'.fail = some .rollback ∧ r.reported i 30 .degraded) ∧ m'.timer = none ∧ m'.owed = none
          ∧ o'.firmware = fw ∧ o'.activity = .idle ∧ o'.updateHold = false ∧ o'.carried = [] ∧ o'.refused = []
          ∧ ((o.lifecycle = .inService ∨ o.lifecycle = .rejoining) → o'.lifecycle = .rejoining ∧ o'.step = some .capsReq)
          ∧ r.latched.getLsbD Cause.campaign.number = true))
    ∧ (∀ (i : Fin 24) (o : Oven) (x : Exchange) (status p : List Byte) (tag : Bool) (s : State), s.brings i o x status tag p →
      4 ≤ p.length → s.site.recs.activating i = false → (o.lifecycle = .inService ∨ o.lifecycle = .loading) →
      ∃ (r : Recs) (o' : Oven), exec (.exchangeSuccess (eventFrame i x status 12 tag p)) s = .next (s.withRecs r)
        ∧ r.oven i = some o' ∧ o'.lifecycle = .rejoining ∧ o'.step = some .capsReq)

/-! ## The oven bus -/

/-- A round starts when the last has ended and its interval has elapsed since it started, and not before (R27): the number rises
by one, wrapping from 65535 to 0, the interval and the chunk rate are those of the current mode's profile, the start is recorded,
and the lowest occupied slot that is not FAILED has the first turn (R28); with no such slot and no chunk to broadcast a sweep is
due, or the round is over (R38, R39).

After a valid reply that is no answer to a retirement's RELEASE a turn of fewer than four exchanges goes on while more events
follow or an owner has work, such as a commissioning step, a revocation or an abort (R30). It ends with its fourth exchange, when
nothing follows and nothing is owed, after a RELEASE that retires, after a failed exchange, and when its slot has been freed (R22,
R28, R30). The lowest slot above that is occupied and not FAILED then has the next turn, and with none left the round goes to its
end-of-round work (R28). -/
def Obligations.RoundStartReadsTheProfileAndGivesTheFirstTurn : Prop :=
  (∀ (s : State) (t0 : Nat), s.running = true → s.site.recs.obm.phase = .waiting → s.site.recs.obm.startTick = some t0 →
    (s.site.env.tick < t0 + s.site.recs.obm.interval → exec .roundStart s = .next s)
    ∧ (t0 + s.site.recs.obm.interval ≤ s.site.env.tick → ∃ r : Recs, exec .roundStart s = .next (s.withRecs r)
      ∧ r.obm.round = (s.site.recs.obm.round + 1) % 65536 ∧ r.obm.interval = s.site.env.profile.interval
      ∧ r.obm.rate = s.site.env.profile.rate ∧ r.obm.startTick = some s.site.env.tick ∧ r.latches = s.site.recs.latches
      ∧ (∀ (i : Fin 24) (o : Oven), s.site.recs.oven i = some o → o.lifecycle ≠ .failed →
          (∀ (j : Fin 24) (p : Oven), j < i → s.site.recs.oven j = some p → p.lifecycle = .failed) →
          r.obm.position = some i ∧ r.obm.phase = .turn ∧ r.obm.exchanges = 0)
      ∧ ((∀ (j : Fin 24) (p : Oven), s.site.recs.oven j = some p → p.lifecycle = .failed) → s.site.recs.campaign = none →
          r.obm.position = none
          ∧ r.obm.phase = if s.site.recs.obm.sweepNow = true ∨ s.site.env.discovery ≠ 0 then .sweepDue else .waiting)))
  ∧ ∀ (i : Fin 24) (x : Exchange) (s : State), s.running = true → s.site.recs.obm.position = some i →
    s.site.recs.obm.exchange = some x →
    let b := s.site.recs.obm
    let d := s.site.env.discovery
    let turnFor (j : Fin 24) : Prop := ∃ p : Oven, s.site.recs.oven j = some p ∧ p.lifecycle ≠ .failed
    let ends (c : Instr) : Prop := ∃ r : Recs, exec c s = .next (s.withRecs r) ∧ r.obm.exchange = none ∧ r.obm.round = b.round
      ∧ (∀ j, i < j → turnFor j → (∀ k, i < k → k < j → ¬turnFor k) →
          r.obm.position = some j ∧ r.obm.phase = .turn ∧ r.obm.exchanges = 0)
      ∧ ((∀ j, i < j → ¬turnFor j) → (r.obm.phase = .data ∨ r.obm.phase = .sweepDue ∨ r.obm.phase = .waiting)
        ∧ (s.site.recs.campaign = none → r.obm.phase
            = if b.sweepNow = true ∨ (d ≠ 0 ∧ (b.round % d = 0 ∨ b.hadTurn = false)) then .sweepDue else .waiting))
    (b.phase = .attemptFailed → 3 ≤ x.attempts → ends .exchangeFailure)
    ∧ ∀ p : List Byte, b.phase = .listening → p.length = 4 →
      let reply : Instr := .exchangeSuccess (replyFrame i x p)
      (b.freed = true ∨ x.work = .release true ∨ 4 ≤ b.exchanges → ends reply)
      ∧ ∀ o : Oven, s.site.recs.oven i = some o → b.freed = false → x.work ≠ .release true → b.exchanges < 4 →
        let more := bitOf (byteAt p 3) 2 = true
        let owes := o.lifecycle ≠ .retiring ∧ (o.step ≠ none ∨ o.revokeOwed = true ∨ o.abortOwed ≠ none)
        let nothing := (o.step = none ∨ (o.lifecycle = .retiring ∧ o.releaseDue = false)) ∧ o.revokeOwed = false
          ∧ o.grantTelegram ≠ .owed ∧ o.abortOwed = none ∧ (∀ m : Member, s.site.recs.member i = some m → m.owed = none)
          ∧ o.clearPending = false ∧ (∀ en ∈ o.carried, en.state ≠ some .stale) ∧ ∀ q ∈ o.target, ∃ en ∈ o.carried, en.id = q.1
        let settled := o.unreachable = false ∧ (∀ k : Obligation, o.obligation = some k → k.state ≠ .running)
          ∧ activityOfCode (numAt p 0 1) = some o.activity
        (more ∨ (x.work.plain = true ∧ owes) → ∃ r : Recs, exec reply s = .next (s.withRecs r) ∧ r.obm.phase = .turn
          ∧ r.obm.position = some i ∧ r.obm.exchange = none ∧ r.obm.exchanges = b.exchanges)
        ∧ (¬more → x.work.plain = true → nothing → settled → ends reply)

/-- EXCHANGE_START selects one telegram in the order of R29 and makes the first attempt: a commissioning step, which a RETIRING
record offers once its release is due (R2, R22), then a revocation (R116), a grant owed, which becomes SENT (R114), an abort owed
and then a member's telegram (R151), then the recipe work of R77 and R78, and POLL when no owner has work. The frame carries the
control byte with the oven's strength, the bits that the spec leaves open at 0 (log 47), and the payload of its kind, and an
ASSIGN goes to address 0 with the serial and the slot's address (R25, R29, R189).

The recipe work of an oven that is LOADING or IN_SERVICE, reachable, not UPDATING, and, while it cooks, under a profile that
pushes to cooking ovens (R77): CLEAR_SET alone while it is pending, which an oven that cooks is not sent; else, with no
acknowledgement awaited, the lowest STALE entry outside the target to drop, the first of the target whose entry is STALE to
replace, the first without an entry to add while the list has room (R78); the id being cooked is passed over. The load carries the
recipe's stages adapted to the oven's capability (R79). The work is recorded in flight, with its entry DROPPING or LOADING (R80).
-/
def Obligations.ExchangeStartSendsTheFirstOwnersTelegram : Prop :=
  ∀ (i : Fin 24) (o : Oven) (s : State), s.running = true → s.site.recs.obm.phase = .turn →
    s.site.recs.obm.position = some i → s.site.recs.obm.freed = false → s.site.recs.obm.halts = [] →
    s.site.recs.oven i = some o →
    let offers (c : CommStep) : Prop := o.step = some c ∧ (o.lifecycle ≠ .retiring ∨ o.releaseDue = true)
    let noStep := o.step = none ∨ (o.lifecycle = .retiring ∧ o.releaseDue = false)
    let noGrant := o.revokeOwed = false ∧ o.grantTelegram ≠ .owed
    let owed (t : Owed) : Prop := ∃ m : Member, s.site.recs.member i = some m ∧ m.owed = some t
    let noUpdate := o.abortOwed = none ∧ (o.lifecycle = .retiring ∨ ∀ t, ¬owed t)
    let takesRecipes := (o.lifecycle = .inService ∨ o.lifecycle = .loading) ∧ o.unreachable = false ∧ o.activity ≠ .updating
      ∧ (o.activity = .cooking → s.site.env.profile.push = true)
    let noAck := ∀ f, o.inFlight = some f → f.delivered = false
    let cooked (id : Nat) : Prop := o.activity = .cooking ∧ ∃ k : CookCtx, o.cook = some k ∧ k.recipe = id
    let stale (en : Entry) : Prop := en ∈ o.carried ∧ en.state = some .stale ∧ ¬cooked en.id
    let drops (en : Entry) : Prop := stale en ∧ ∀ p ∈ o.target, p.1 ≠ en.id
    let replaces (p : Nat × Nat) : Prop := ∃ en : Entry, stale en ∧ en.id = p.1
    let adds (p : Nat × Nat) : Prop := (∀ en ∈ o.carried, en.id ≠ p.1) ∧ ¬cooked p.1
    let room := ∃ c : Capability, o.capability = some c ∧ o.carried.length < min 40 c.capacity
    let adapted (c : Capability) (t : Stage) : Stage :=
      let dry := c.steam = false ∧ (t.mode = .steam ∨ t.mode = .combi)
      { t with
        setpoint := clamp c.tempMin c.tempMax t.setpoint, mode := if dry then .convection else t.mode
        humidity := if dry then 0 else t.humidity
        stop := match t.stop with
          | .probe core cap => if c.probe = true then .probe core cap else .time cap
          | .time d => .time d }
    let ordered := o.carried.Pairwise (fun a b => a.id < b.id)
    ∃ (r : Recs) (x : Exchange), exec .exchangeStart s = .next (s.withRecs r) ∧ r.obm.exchange = some x ∧ x.attempts = 1
      ∧ x.work = s.site.recs.selectWork s.site.env i o ∧ x.kind = x.work.kind ∧ x.payload = s.site.recs.workPayload i o x.work
      ∧ (offers .assign → x.work = .assign) ∧ (offers .capsReq → x.work = .capsReq)
      ∧ (offers .release → x.work = .release (decide (o.lifecycle = .retiring)))
      ∧ (noStep → o.revokeOwed = true → x.work = .revoke)
      ∧ (∀ (b : Obligation) (g : Grant), noStep → o.revokeOwed = false → o.grantTelegram = .owed → o.obligation = some b →
          b.grant = some g → x.work = .grant g.level ∧ x.kind = .cleanGrant ∧ x.payload = u8 g.level.code
            ∧ r.oven i = some { o with grantTelegram := .sent })
      ∧ (∀ k, noStep → noGrant → o.abortOwed = some k → x.work = .abort k ∧ x.kind = .updateAbort ∧ x.payload = u16 k)
      ∧ (∀ t, noStep → noGrant → o.abortOwed = none → o.lifecycle ≠ .retiring → owed t → x.work = .update t)
      ∧ (∀ t m, x.work = .update t → s.site.recs.member i = some m → r.member i = some { m with onLine := true })
      ∧ (noStep → noGrant → noUpdate →
        (¬takesRecipes → x.work = .poll)
        ∧ (o.clearPending = true → o.activity = .cooking → x.work = .poll)
        ∧ (takesRecipes → o.clearPending = true → o.activity ≠ .cooking → x.work = .clearSet)
        ∧ (o.clearPending = false → ¬noAck → x.work = .poll)
        ∧ (o.clearPending = false → (∀ en, ¬drops en) → (∀ p ∈ o.target, ¬replaces p) → (¬room ∨ ∀ p ∈ o.target, ¬adds p) →
            x.work = .poll)
        ∧ (takesRecipes → o.clearPending = false → noAck → ordered →
          (∀ en, drops en → (∀ en', drops en' → en.id ≤ en'.id) → x.work = .drop en.id ∧ x.payload = u16 en.id
            ∧ r.oven i = some { o with
                inFlight := some { id := en.id, load := none, delivered := false, clamped := false }
                carried := o.carried.map fun c => if c.id = en.id then { c with state := some .dropping } else c })
          ∧ ∀ (before after : List (Nat × Nat)) (id v : Nat) (y : Recipe) (c : Capability),
            o.target = before ++ (id, v) :: after → s.site.recs.recordOf id v = some y → o.capability = some c → (∀ en, ¬drops en) →
            let stages := y.stages.map (adapted c)
            let loads (carried : List Entry) : Prop := x.work = .load id v ∧ x.kind = .recipeLoad
              ∧ x.payload = u16 y.id ++ u8 y.version ++ nameBytes y.name ++ (stages.map Stage.bytes).flatten
              ∧ r.oven i = some { o with
                  inFlight := some { id := id, load := some v, delivered := false, clamped := decide (stages ≠ y.stages) }
                  carried := carried }
            ((∀ p ∈ before, ¬replaces p) → replaces (id, v) →
              loads (o.carried.map fun en => if en.id = id then { en with state := some .loading } else en))
            ∧ ((∀ p ∈ o.target, ¬replaces p) → room → (∀ p ∈ before, ¬adds p) → adds (id, v) →
              loads (o.carried.filter (fun en => decide (en.id < id))
                ++ { id := id, held := none, wanted := some v, state := some .loading, clamped := false }
                :: o.carried.filter (fun en => decide (id < en.id))))))
      ∧ (x.work = .poll → x.kind = .poll ∧ x.payload = [] ∧ x.address = BitVec.ofNat 8 (i.val + 1))
      ∧ x.carried = s.site.recs.strength i ∧ r.obm.phase = .listening ∧ r.obm.exchanges = s.site.recs.obm.exchanges + 1
      ∧ r.obm.line = busFrame x.address x.kind.code (s.site.recs.controlByte i :: x.payload)
      ∧ (o.lifecycle = .addressing → o.step = some .assign →
          x.kind = .assign ∧ x.address = 0#8 ∧ x.payload = u48 o.serial.toNat ++ [BitVec.ofNat 8 (i.val + 1)])
      ∧ (o.step = none → o.revokeOwed = true → x.kind = .grantRevoke ∧ x.address = BitVec.ofNat 8 (i.val + 1))

/-- The attempts of an exchange (R31): a lost or invalid reply fails the attempt and changes nothing else; while fewer than three
have been made the held telegram is sent again with a fresh control byte.

An event that repeats the accepted tag of its oven is discarded (R37). An UPDATE_BEGIN, UPDATE_END or UPDATE_VERIFY owed is
cleared when an exchange that carried it ends with a valid reply, and stays owed after a failed one (R151); one owed anew since
that exchange was selected stays owed too (log 40).

A valid reply with a status block alone to another owner's telegram: a CLEAR_SET empties the store, and a LOADING oven whose
target is empty goes into service (R8, R84); work in flight takes its delivered mark, and a failed exchange abandons it (R80);
GRANT_REVOKE and UPDATE_ABORT are no longer owed (R116, R151); UPDATE_ACTIVATE makes the activity UPDATING (R159).

The cook and recipe events that a valid reply with more events to follow brings: COOK_START opens a context, counted when the
library holds its pair (R17; version 0 is unknown, log 16); COOK_END passes its report to the soil and closes the context (R18,
R94); RECIPE_ACK settles the work in flight, or tells what the oven now holds (R81 to R83; log 38). A REJECTED acknowledgement is
taken by R82 whatever is in flight and whether or not the list has the id: the model's reading (log 23). -/
def Obligations.AttemptsFailAreRepeatedAndEventsAreTakenOnce : Prop :=
  (∀ (i : Fin 24) (x : Exchange) (flaw : ReplyFlaw) (s : State), s.running = true → s.site.recs.obm.position = some i →
      s.site.recs.obm.exchange = some x →
      let r := s.site.recs
      let failed : State := s.withRecs { r with obm := { r.obm with phase := .attemptFailed } }
      (r.obm.phase = .listening → exec .replyTimeout s = .next failed ∧ exec (.invalidReply flaw) s = .next failed
        ∧ ∀ frame, replyPayload i x frame = none → exec (.exchangeSuccess frame) s = .next failed)
      ∧ (r.obm.phase = .attemptFailed → x.attempts < 3 → r.obm.halts = [] →
          exec .attemptRetry s = .next (s.withRecs { r with obm := { r.obm with
            exchange := some { x with attempts := x.attempts + 1, carried := r.strength i }
            phase := .listening
            line := busFrame x.address x.kind.code (r.controlByte i :: x.payload) } })))
    ∧ (∀ (i : Fin 24) (o : Oven) (x : Exchange) (p : List Byte) (s : State), s.listens i o x → o.lifecycle ≠ .retiring → p.length = 4 →
      let answered (q : Recs → Oven → Prop) : Prop :=
        ∃ (r : Recs) (o' : Oven), exec (.exchangeSuccess (replyFrame i x p)) s = .next (s.withRecs r) ∧ r.oven i = some o' ∧ q r o'
      (x.work = .clearSet → answered fun _ o' => o'.carried = [] ∧ o'.inFlight = none ∧ o'.clearPending = false
        ∧ (o.lifecycle = .loading → o.target = [] → o'.lifecycle = .inService)
        ∧ (o.lifecycle ≠ .loading ∨ (o.target ≠ [] ∧ ∃ k : Capability, o.capability = some k ∧ 0 < k.capacity) →
            o'.lifecycle = o.lifecycle))
      ∧ ((∃ id, x.work = .drop id) ∨ (∃ id v, x.work = .load id v) → answered fun _ o' => o'.carried = o.carried
        ∧ o'.inFlight = o.inFlight.map fun f => { f with delivered := true })
      ∧ (x.work = .revoke → o.grantTelegram ≠ .sent → answered fun _ o' => o'.revokeOwed = false)
      ∧ (∀ c, x.work = .abort c → (∀ m, s.site.recs.member i = some m → m.state ≠ .queued ∨ m.wave = false) →
        answered fun _ o' => o'.abortOwed = if o.abortOwed = some c then none else o.abortOwed)
      ∧ (∀ m, x.work = .update .activate → s.site.recs.member i = some m → m.state = .activating → bitOf (byteAt p 3) 2 = true →
        answered fun r o' => o'.activity = .updating
          ∧ ∃ m', r.member i = some m' ∧ m'.state = .activating ∧ m'.owed = none ∧ m'.timer = m.timer))
    ∧ (∀ (i : Fin 24) (o : Oven) (x : Exchange) (f : InFlight) (s : State), s.gaveUp i o x → o.inFlight = some f →
      ((∃ id, x.work = .drop id) ∨ ∃ id v, x.work = .load id v) → o.carried.Pairwise (fun a b => a.id < b.id) →
      ∃ (r : Recs) (o' : Oven), exec .exchangeFailure s = .next (s.withRecs r) ∧ r.oven i = some o' ∧ o'.inFlight = none
        ∧ (∀ en, o.entry f.id = some en → o'.entry f.id = if en.held = none then none else some { en with state := some .stale })
        ∧ ∀ id, id ≠ f.id → o'.entry id = o.entry id)
    ∧ (∀ (e : Env) (i : Fin 24) (o : Oven) (p : List Byte) (r : Recs), r.oven i = some o → 6 ≤ p.length →
      o.tag = some (bitOf (byteAt p 5) 0) → r.takeEvent e i p = r)
    ∧ (∀ (e : Env) (i : Fin 24) (k : Owed) (m : Member) (r : Recs), r.member i = some m → k ≠ .activate →
      r.notDelivered i (.update k) = r
      ∧ (m.owed = some k → m.onLine = true → (r.delivered e i (.update k)).member i = some { m with owed := none })
      ∧ (m.owed ≠ some k ∨ m.onLine = false → (r.delivered e i (.update k)).member i = some m))
    ∧ (∀ (i : Fin 24) (o : Oven) (x : Exchange) (status p : List Byte) (tag : Bool) (s : State), s.brings i o x status tag p →
      let e := s.site.env
      let takes (kind : Nat) (q : Recs → Oven → Prop) : Prop :=
        ∃ (r : Recs) (o' : Oven), exec (.exchangeSuccess (eventFrame i x status kind tag p)) s = .next (s.withRecs r)
          ∧ r.oven i = some o' ∧ q r o'
      (3 ≤ p.length →
        let id := numAt p 0 2
        let v := numAt p 2 1
        takes 1 fun _ o' => o'.activity = .cooking ∧ ∃ k : CookCtx, o'.cook = some k ∧ k.recipe = id
          ∧ k.version = (if v = 0 then none else some v) ∧ k.startedAt = e.minute
          ∧ ((∀ k0, o.cook = some k0 → k0.recipe ≠ id ∨ k0.version ≠ some v) →
              (k.counted = true ↔ id ≠ 0 ∧ ∃ (n : Fin 128) (y : Recipe), s.site.recs.recipe n = some y ∧ y.id = id ∧ y.version = v)))
      ∧ (∀ y : CookReport, eventOf 2 p = some (.cookEnd y) → o.lifecycle ≠ .retiring →
        takes 2 fun _ o' => o'.activity = .idle ∧ o'.cook = none ∧ o'.soil = if y.stages = [] then o.soil
          else soilAfter e.soil (s.site.recs.soilFactor e y.recipe y.version) y.stages o.soil)
      ∧ (4 ≤ p.length →
        let id := numAt p 0 2
        let v := numAt p 2 1
        let ok := numAt p 3 1 = 0
        let stateOf (en : Entry) : Option EntryState := some (if en.wanted = some v then .current else .stale)
        let away := ∀ f, o.inFlight = some f → f.id ≠ id
        (∀ (f : InFlight) (en : Entry), o.inFlight = some f → f.id = id → f.load = some v → f.delivered = true → v ≠ 0 → ok →
          o.entry id = some en → takes 7 fun _ o' => o'.inFlight = none
            ∧ o'.entry id = some { en with held := some v, state := stateOf en, clamped := f.clamped })
        ∧ (v ≠ 0 → ¬ok → takes 7 fun r o' => (id, v) ∈ o'.refused ∧ (id, v) ∉ o'.target
            ∧ r.latched.getLsbD Cause.sync.number = true
            ∧ ∀ f, o.inFlight = some f → f.id = id → f.load = some v → f.delivered = true → o'.inFlight = none)
        ∧ (∀ f : InFlight, o.inFlight = some f → f.id = id → f.load = none → f.delivered = true → v = 0 →
          takes 7 fun _ o' => o'.inFlight = none ∧ o'.entry id = none)
        ∧ (∀ en : Entry, o.entry id = some en → away →
          (v ≠ 0 → ok → en.held = some v → takes 7 fun _ o' => o'.entry id = some en)
          ∧ (v ≠ 0 → ok → en.held ≠ some v → takes 7 fun _ o' =>
              o'.entry id = some { en with held := some v, state := stateOf en })
          ∧ (v = 0 → takes 7 fun _ o' => o'.entry id = none))
        ∧ (o.entry id = none → away → (v = 0 ∨ ok) → takes 7 fun _ o' => o'.carried = o.carried ∧ o'.inFlight = o.inFlight)))

/-- The outcome of a telegram whose delivery changes nothing at its owner, a POLL, a CAPS_REQ or a CLEAN_GRANT (R15, R32, R33): a
valid reply with a status block alone returns missed turns to 0, sets last heard, clears the unreachable flag and stores the
applied strength. An exchange of any work whose three attempts failed raises missed turns by one, saturating at 5; while the
oven's member is ACTIVATING it does not (R33).

The status block is reconciled when no more events follow and its activity names one: the record takes the activity and brings its
cook context into line; otherwise both stay (R16, R35). A waiting retirement whose oven becomes IDLE by it, with no member
ACTIVATING, proceeds: it takes the step RELEASE, or with the retire-forced flag its slot is freed (R21, R22); any other RETIRING
record stays.

A CAPS report in the valid reply to one of these telegrams, such as the CAPS_REQ of a record in PROFILING or REJOINING: with the
record's serial its values are stored, and it moves such a record on (R7, R12, R85); with another serial a stranger answers, which
is released (R7, R12); serial 0 is dropped (R1).

A valid reply to ASSIGN moves ADDRESSING to PROFILING and ends a re-address (R6, R11). A stranger's RELEASE ends by a reply or a
failure alike, and the record's own oven is looked for again (R7, R12, R33). The RELEASE of a retirement frees its slot either way
(R22). -/
def Obligations.PollOutcomeUpdatesReachability : Prop :=
  (∀ (i : Fin 24) (o : Oven) (x : Exchange) (p : List Byte) (s : State), s.listens i o x → x.work.plain = true → p.length = 4 →
    let reply : Instr := .exchangeSuccess (replyFrame i x p)
    let released := o.lifecycle = .retiring ∧ o.step ≠ some .release ∧ o.activity ≠ .idle ∧ s.site.recs.activating i = false
      ∧ bitOf (byteAt p 3) 2 = false ∧ activityOfCode (numAt p 0 1) = some .idle
    (released → o.retireForced = true → ∃ r : Recs, exec reply s = .next (s.withRecs r) ∧ r.oven i = none)
    ∧ (released → o.retireForced = false → ∃ (r : Recs) (o' : Oven), exec reply s = .next (s.withRecs r) ∧ r.oven i = some o'
      ∧ o'.lifecycle = .retiring ∧ o'.step = some .release ∧ o'.serial = o.serial ∧ o'.activity = .idle ∧ o'.cook = none
      ∧ o'.obligation = none ∧ o'.carried = [] ∧ o'.missed = 0 ∧ o'.lastHeard = s.site.env.minute)
    ∧ (¬released → ∃ (r : Recs) (o' : Oven), exec reply s = .next (s.withRecs r)
      ∧ r.oven i = some o' ∧ (o.lifecycle = .retiring → o'.lifecycle = .retiring ∧ o'.step = o.step)
      ∧ o'.missed = 0 ∧ o'.lastHeard = s.site.env.minute ∧ o'.unreachable = false
      ∧ o'.applied = some (strengthOfCode ((byteAt p 3).toNat % 4)) ∧ o'.serial = o.serial
      ∧ (∀ a : Activity, bitOf (byteAt p 3) 2 = false → activityOfCode (numAt p 0 1) = some a → o'.activity = a
        ∧ (a ≠ .cooking → o'.cook = none)
        ∧ (∀ k, a = .cooking → o.cook = some k → k.recipe = numAt p 1 2 → o'.cook = some k)
        ∧ (a = .cooking → (∀ k, o.cook = some k → k.recipe ≠ numAt p 1 2) → o'.cook
            = some { recipe := numAt p 1 2, version := none, startedAt := s.site.env.minute, counted := false }))
      ∧ (bitOf (byteAt p 3) 2 = true ∨ activityOfCode (numAt p 0 1) = none → o'.activity = o.activity ∧ o'.cook = o.cook)))
  ∧ (∀ (i : Fin 24) (o : Oven) (x : Exchange) (status p : List Byte) (tag : Bool) (y : CapsReport) (s : State),
    s.carries i o x status tag p → (o.lifecycle = .retiring → bitOf (byteAt status 3) 2 = true) → eventOf 13 p = some (.caps y) →
    ∃ (r : Recs) (o' : Oven), exec (.exchangeSuccess (eventFrame i x status 13 tag p)) s = .next (s.withRecs r)
      ∧ r.oven i = some o' ∧ o'.serial = o.serial
      ∧ (y.serial = o.serial → y.serial ≠ 0#48 → o.lifecycle ≠ .failed →
        o'.capability = some y.capability ∧ o'.model = y.model ∧ o'.firmware = y.firmware
          ∧ (o.lifecycle = .profiling → o'.lifecycle = .loading ∧ o'.step = none ∧ o'.carried = [] ∧ o'.clearPending = true)
          ∧ (o.lifecycle = .rejoining → o'.step = none ∧ o'.missed = 0 ∧ o'.unreachable = false
            ∧ (o.served = true → o'.lifecycle = .inService) ∧ (o.served = false → o'.lifecycle = .loading ∨ o'.lifecycle = .inService)
            ∧ (o.clearPending = false → digest o.abandonWork.carried ≠ y.digest → o'.clearPending = true))
          ∧ (o.lifecycle = .inService → o'.lifecycle = .inService)
          ∧ (o.lifecycle = .loading → o'.lifecycle = .loading ∨ o'.lifecycle = .inService)
          ∧ ((o.lifecycle = .addressing ∨ o.lifecycle = .retiring) → o'.lifecycle = o.lifecycle ∧ o'.step = o.step))
      ∧ (y.serial ≠ o.serial → y.serial ≠ 0#48 → o'.capability = o.capability ∧ o'.model = o.model ∧ o'.firmware = o.firmware
        ∧ (o.lifecycle = .profiling → o'.lifecycle = .profiling ∧ o'.step = some .release)
        ∧ ((o.lifecycle = .rejoining ∨ o.lifecycle = .inService ∨ o.lifecycle = .loading) →
            o'.lifecycle = .rejoining ∧ o'.step = some .release)
        ∧ ((o.lifecycle = .addressing ∨ o.lifecycle = .retiring) → o'.lifecycle = o.lifecycle ∧ o'.step = o.step))
      ∧ (y.serial = 0#48 → o'.capability = o.capability ∧ o'.lifecycle = o.lifecycle ∧ o'.step = o.step))
  ∧ (∀ (i : Fin 24) (o : Oven) (x : Exchange) (p : List Byte) (s : State), s.listens i o x → o.lifecycle ≠ .retiring → p.length = 4 →
    let reply : Instr := .exchangeSuccess (replyFrame i x p)
    x.work = .assign ∨ x.work = .release false →
    ∃ (r : Recs) (o' : Oven), exec reply s = .next (s.withRecs r) ∧ r.oven i = some o' ∧ o'.missed = 0 ∧ o'.unreachable = false
      ∧ (x.work = .assign → o.lifecycle = .addressing → o'.lifecycle = .profiling ∧ o'.step = some .capsReq)
      ∧ (x.work = .assign → o.lifecycle = .rejoining → o'.lifecycle = .rejoining
          ∧ o'.step = if o.step = some .assign then some .capsReq else o.step)
      ∧ (x.work = .release false → o.step = some .release → o.lifecycle = .profiling →
          o'.lifecycle = .addressing ∧ o'.step = some .assign)
      ∧ (x.work = .release false → o.step = some .release → o.lifecycle = .rejoining →
          o'.lifecycle = .rejoining ∧ o'.step = some .capsReq))
  ∧ (∀ (i : Fin 24) (o : Oven) (x : Exchange) (s : State), s.gaveUp i o x → x.work ≠ .release true →
    let busy := s.site.recs.activating i
    ∃ (r : Recs) (o' : Oven), exec .exchangeFailure s = .next (s.withRecs r) ∧ r.oven i = some o'
      ∧ o'.missed = (if busy = true then o.missed else min 5 (o.missed + 1)) ∧ o'.lastHeard = o.lastHeard ∧ o'.serial = o.serial
      ∧ (busy = true → o'.unreachable = o.unreachable ∧ r.activating i = true)
      ∧ (x.work = .release false → o.step = some .release → o.lifecycle = .profiling → busy = true ∨ o.missed < 4 →
          o'.lifecycle = .addressing ∧ o'.step = some .assign)
      ∧ (x.work = .release false → o.step = some .release → o.lifecycle = .rejoining →
          o'.lifecycle = .rejoining ∧ o'.step = some .capsReq))
  ∧ ∀ (i : Fin 24) (o : Oven) (x : Exchange) (s : State), x.work = .release true →
    (∀ (frame p : List Byte), s.listens i o x → replyPayload i x frame = some p →
      ∃ r : Recs, exec (.exchangeSuccess frame) s = .next (s.withRecs r) ∧ r.oven i = none ∧ r.persist.get (.oven i) = true)
    ∧ (s.gaveUp i o x → ∃ r : Recs, exec .exchangeFailure s = .next (s.withRecs r) ∧ r.oven i = none
        ∧ r.persist.get (.oven i) = true)

/-- The missed turn that reaches a limit: the third of an IN_SERVICE oven sets its unreachable flag and latches UNREACHABLE (R14);
the fifth of a record that is being commissioned moves it to FAILED, closes its cook context and latches COMMISSION_FAILED (R9).
That UNREACHABLE and COMMISSION_FAILURE are themselves that missed turn, taken at the counts 2 and 4, is the model's choice (log
4). -/
def Obligations.MissedTurnLimitsTakeTheirEffect : Prop :=
  ∀ (i : Fin 24) (o : Oven) (s : State), s.running = true → s.site.recs.oven i = some o → s.site.recs.activating i = false →
    (o.lifecycle = .inService → o.missed = 2 → o.unreachable = false →
      ∃ (r : Recs) (o' : Oven), exec (.unreachable i) s = .next (s.withRecs r) ∧ r.oven i = some o' ∧ o'.unreachable = true
        ∧ o'.missed = 3 ∧ o'.lifecycle = .inService ∧ r.latched.getLsbD Cause.unreachable.number = true)
    ∧ ((o.lifecycle = .addressing ∨ o.lifecycle = .profiling ∨ o.lifecycle = .loading) → o.missed = 4 →
      ∃ (r : Recs) (o' : Oven), exec (.commissionFailure i) s = .next (s.withRecs r) ∧ r.oven i = some o'
        ∧ o'.lifecycle = .failed ∧ o'.step = none ∧ o'.cook = none ∧ o'.activity = .idle
        ∧ r.latched.getLsbD Cause.commissionFailed.number = true)

/-- The end of a round: a DATA broadcast of the lowest chunk takes it out of the window (R38); a sweep sends DISCOVER with the seed
and clears the sweep-now flag (R39, R40); its window closes with the seed raised by one modulo 256 (R40); DISCOVER_NOW asks for a
sweep (R39); a HALT goes out for the head of the queue, which has one send less or leaves (R41).

A discovery reply heard in the reply slot of its serial (R3, R40): an unknown serial enters a list with room and is dropped from a
full one, a listed one is renewed with one sighting more, and the reply of an ignored serial or of serial 0 is dropped. The serial
of an oven record is a re-address: the record is in REJOINING with step ASSIGN, unless it is ADDRESSING, FAILED or RETIRING (R11).
The first frame marks its reply slot as heard, and whatever follows in that slot is ignored (R40; log 36). -/
def Obligations.EndOfRoundAndDiscoveryTakeTheirEffect : Prop :=
  (∀ s : State,
      let r := s.site.recs
      let b := s.site.recs.obm
      (∀ (c : Campaign) (k : Chunk), s.running = true → b.phase = .data → b.halts = [] → r.campaign = some c → b.dataSent < b.rate →
          c.lowestChunk = some k →
        ∃ (r' : Recs) (c' : Campaign), exec .dataBroadcast s = .next (s.withRecs r') ∧ r'.campaign = some c'
          ∧ r'.obm.line = busFrame 0xFF#8 0x42#8 (u16 c.id ++ u16 k.index ++ k.data) ∧ r'.obm.dataSent = b.dataSent + 1
          ∧ c'.window = c.window.filter fun x => decide (x.index ≠ k.index))
      ∧ (s.running = true → b.phase = .sweepDue → b.halts = [] → exec .sweepStart s = .next (s.withRecs { r with obm := { b with
          phase := .window, sweepNow := false, heard := Vector.replicate 8 false, line := busFrame 0xFF#8 0x40#8 (u8 b.seed) } }))
      ∧ (s.running = true → b.phase = .window → exec .sweepWindowClose s = .next (s.withRecs { r with obm := { b with
          phase := .waiting, seed := (b.seed + 1) % 256 } }))
      ∧ (s.takesLive .discoverNow = true → exec .discoverNow s = .next (s.answer 0x10#8 .ok [] { s.site with
          recs := { r with obm := { b with sweepNow := true } } }))
      ∧ ∀ (h : HaltEntry) (hs : List HaltEntry), s.running = true → b.halts = h :: hs →
          (b.phase = .waiting ∨ b.phase = .turn ∨ b.phase = .attemptFailed ∨ b.phase = .data ∨ b.phase = .sweepDue) →
          exec .haltSend s = .next (s.withRecs { r with obm := { b with
            halts := if h.sends ≤ 1 then hs else { h with sends := h.sends - 1 } :: hs
            line := busFrame 0xFF#8 0x41#8 (u8 h.zone.val ++ leBytes 3 ((List.finRange 24).map fun (i : Fin 24) =>
              if ∃ o, r.oven i = some o ∧ o.zone = h.zone then 2 ^ i.val else 0).sum) } }))
    ∧ (∀ (k : Fin 8) (frame : List Byte) (s : State), s.running = true → s.site.recs.obm.phase = .window →
      let r := s.site.recs
      let marked : Recs := { r with obm := { r.obm with heard := r.obm.heard.set k true } }
      (r.obm.heard[k] = true → exec (.discoveryReply k frame) s = .next s)
      ∧ (r.obm.heard[k] = false → payloadOf 0#8 0x40#8 frame = none → exec (.discoveryReply k frame) s = .next (s.withRecs marked)))
    ∧ (∀ (k : Fin 8) (p : List Byte) (s : State), s.running = true → s.site.recs.obm.phase = .window →
      s.site.recs.obm.heard[k] = false → 16 ≤ p.length → p.length ≤ 255 →
      let r := s.site.recs
      let marked : Recs := { r with obm := { r.obm with heard := r.obm.heard.set k true } }
      let x : Serial := BitVec.ofNat 48 (numAt p 0 6)
      let reply : Instr := .discoveryReply k (busFrame 0#8 0x40#8 p)
      let inSlot := (x.toNat % 256 ^^^ r.obm.seed) % 8 = k.val
      let unknown := ∀ i o, r.oven i = some o → o.serial ≠ x
      (¬inSlot ∨ x = 0#48 ∨ (unknown ∧ x ∈ r.ignored) → exec reply s = .next (s.withRecs marked))
      ∧ (inSlot → x ≠ 0#48 → unknown → x ∉ r.ignored → (∀ d ∈ r.discovered, d.serial ≠ x) →
        (r.discovered.length < 8 → exec reply s = .next (s.withRecs { marked with discovered := r.discovered ++
          [{ serial := x, model := max 1 (min 65534 (numAt p 6 2)), firmware := firmwareAt p 8, sightings := 1
             firstSeen := s.site.env.minute }] }))
        ∧ (8 ≤ r.discovered.length → exec reply s = .next (s.withRecs marked)))
      ∧ (inSlot → x ≠ 0#48 → unknown → x ∉ r.ignored → (∃ d ∈ r.discovered, d.serial = x) →
        exec reply s = .next (s.withRecs { marked with discovered := r.discovered.map fun d =>
          if d.serial = x then { d with
            model := max 1 (min 65534 (numAt p 6 2)), firmware := firmwareAt p 8, sightings := min 255 (d.sightings + 1) }
          else d }))
      ∧ (∀ (i : Fin 24) (o : Oven), inSlot → x ≠ 0#48 → r.oven i = some o → o.serial = x →
        (∀ (j : Fin 24) (q : Oven), r.oven j = some q → q.serial = x → j = i) →
        (o.lifecycle = .rejoining → exec reply s = .next (s.withRecs (marked.putOven i (some { o with step := some .assign }))))
        ∧ ((o.lifecycle = .inService ∨ o.lifecycle = .loading ∨ o.lifecycle = .profiling) →
          ∃ (r' : Recs) (o' : Oven), exec reply s = .next (s.withRecs r') ∧ r'.oven i = some o' ∧ o'.lifecycle = .rejoining
            ∧ o'.step = some .assign ∧ o'.activity = o.activity ∧ o'.cook = o.cook ∧ o'.carried = o.carried ∧ o'.soil = o.soil
            ∧ r'.persist.get (.oven i) = true ∧ r'.discovered = r.discovered ∧ r'.obm = marked.obm)
        ∧ ((o.lifecycle = .addressing ∨ o.lifecycle = .failed ∨ o.lifecycle = .retiring) →
          exec reply s = .next (s.withRecs marked))))

/-! ## Persistence -/

/-- SAVE_NEXT returns the first DIRTY index in the order of R181 with its image and makes it CLEAN; with none DIRTY it answers
with the kind NONE (R181).

RESTORE_PUT (R183): refused with NOT_RESTORE in the LIVE phase; in the RESTORE phase a kind or a number that names no index
is refused with BAD_VALUE, as is a vacancy marker for SETTINGS or SCHEDULE; an image of a wrong shape, or of more entries, stages or
members than its record holds, with BAD_LENGTH. A vacancy marker for an OVEN, RECIPE, TICKET or CAMPAIGN index removes its record.

An image of each kind that passes the checks of R184 is read by the rules of R192 and written, one that fails them is refused with
BAD_VALUE, and a RECIPE image that the pool has no room for with NO_SPACE. That BAD_LENGTH goes before every BAD_VALUE of the image,
and BAD_VALUE before NO_SPACE, is the model's order (log 29). That the hold reasons an image gives are told to nobody is log 8, and
the code of a ticket's origin and the reading of an oven's served byte are log 11. The response tells whether a value was brought into range, and
the index is CLEAN (R183). -/
def Obligations.SaveNextAndRestorePutCopyAndWriteAnIndex : Prop :=
  (∀ s : State, s.takes .saveNext = true →
      let p := s.site.recs.persist
      ((∀ ix, p.get ix = false) → exec .saveNext s
        = .next (s.answer 0x68#8 .ok (u8 0xFF ++ u8 0 ++ u16 0 ++ u16 p.count) s.site))
      ∧ ∀ (ix : Index) (before after : List Index), Index.all = before ++ ix :: after → (∀ j ∈ before, p.get j = false) →
          p.get ix = true → (s.site.image ix).length ≤ 500 →
          exec .saveNext s = .next (s.answer 0x68#8 .ok
            (u8 ix.code.1 ++ u8 ix.code.2 ++ u16 (s.site.image ix).length ++ s.site.image ix ++ u16 (p.count - 1))
            { s.site with recs := { s.site.recs with persist := { p.put ix false with count := p.count - 1 } } }))
    ∧ (∀ (kind number : Byte) (body : List Byte) (s : State), s.takes (.restorePut kind number body) = true →
      let answer (st : Status) : State := s.answer 0x69#8 st [] s.site
      (s.site.env.phase = .live → exec (.restorePut kind number body) s = .next (answer .notRestore))
      ∧ (s.site.env.phase = .restore →
        let n := number.toNat
        let len := body.length
        let put : Host.Outcome State Fault Refusal := exec (.restorePut kind number body) s
        let r := s.site.recs
        let e := s.site.env
        let taken (changed : Bool) (ix : Index) (st : Site) : Host.Outcome State Fault Refusal := .next (s.answer 0x69#8 .ok
          [if changed = true then 1#8 else 0#8] { st with recs := { st.recs with persist := st.recs.persist.clean ix } })
        ((6 ≤ kind.toNat ∨ ((kind = 0#8 ∨ kind = 1#8 ∨ kind = 5#8) ∧ n ≠ 0) ∨ (kind = 2#8 ∧ 24 ≤ n) ∨ (kind = 3#8 ∧ 128 ≤ n)
            ∨ (kind = 4#8 ∧ 64 ≤ n) → put = .next (answer .badValue)))
        ∧ (n = 0 → body = [] → (kind = 0#8 ∨ kind = 1#8) → put = .next (answer .badValue))
        ∧ (body ≠ [] → ((kind = 0#8 ∧ n = 0 ∧ len ≠ 93) ∨ (kind = 1#8 ∧ n = 0 ∧ len ≠ 1 + 3 * numAt body 0 1)
              ∨ (kind = 2#8 ∧ n < 24 ∧ (len < 56 ∨ len ≠ 56 + 3 * numAt body 55 1))
              ∨ (kind = 3#8 ∧ n < 128 ∧ (len < 28 ∨ (len - 28) % 8 ≠ 0)) ∨ (kind = 4#8 ∧ n < 64 ∧ len ≠ 25)
              ∨ (kind = 5#8 ∧ n = 0 ∧ (len < 19 ∨ len ≠ 19 + 5 * numAt body 18 1))
              ∨ (kind = 1#8 ∧ n = 0 ∧ 8 < numAt body 0 1) ∨ (kind = 3#8 ∧ n < 128 ∧ (len < 36 ∨ 124 < len))
              ∨ (kind = 5#8 ∧ n = 0 ∧ 24 < numAt body 18 1)) → put = .next (answer .badLength))
        ∧ (∀ i : Fin 24, kind = 2#8 → n = i.val → body = [] → put = taken false (.oven i) { s.site with recs := r.putOven i none })
        ∧ (∀ k : Fin 128, kind = 3#8 → n = k.val → body = [] →
            put = taken false (.recipe k) { s.site with recs := r.putRecipe k none })
        ∧ (∀ k : Fin 64, kind = 4#8 → n = k.val → body = [] → put = taken false (.ticket k) { s.site with recs := r.putTicket k none })
        ∧ (kind = 5#8 → n = 0 → body = [] → put = taken false .campaign { s.site with recs := { r with campaign := none } })
        ∧ (kind = 0#8 → n = 0 → len = 93 →
          let x := e.readSettings body
          put = taken x.clamped .settings
            { env := x.value, recs := { r with first := x.value.clean.first }.clampHygiene x.value.soil.reload })
        ∧ (kind = 1#8 → n = 0 → len = 1 + 3 * numAt body 0 1 → numAt body 0 1 ≤ 8 →
          (∀ xs, readSchedule body (numAt body 0 1) 1 = some xs →
            (distinct (xs.map fun y => y.value.minute) = true → put = taken (xs.any Read.clamped) .schedule
              (Site.reapply { s.site with env := { e with schedule := (xs.map Read.value).foldr insertSched [] } }))
            ∧ (distinct (xs.map fun y => y.value.minute) = false → put = .next (answer .badValue)))
          ∧ (readSchedule body (numAt body 0 1) 1 = none → put = .next (answer .badValue)))
        ∧ (∀ i : Fin 24, kind = 2#8 → n = i.val → 56 ≤ len → len = 56 + 3 * numAt body 55 1 →
          let x := e.readOven body
          put = if r.ovenImageBad i x.value (carriedAt body) = true then .next (answer .badValue)
            else taken x.clamped (.oven i) { s.site with recs := r.putOven i (some x.value) })
        ∧ (∀ k : Fin 128, kind = 3#8 → n = k.val → 36 ≤ len → len ≤ 124 → (len - 28) % 8 = 0 →
          (readRecipe body = none → put = .next (answer .badValue))
          ∧ ∀ x, readRecipe body = some x → put = if r.recipeImageBad k x.value = true then .next (answer .badValue)
              else if (r.putRecipe k none).poolFree < (len - 28) / 8 then .next (answer .noSpace)
              else taken x.clamped (.recipe k) { s.site with recs := r.putRecipe k (some x.value) })
        ∧ (∀ k : Fin 64, kind = 4#8 → n = k.val → len = 25 →
          let x := readTicket body
          put = if r.ticketImageBad k (numAt body 2 1) x.value = true then .next (answer .badValue)
            else taken x.clamped (.ticket k) { s.site with recs := r.putTicket k (some x.value) })
        ∧ (kind = 5#8 → n = 0 → 19 ≤ len → len = 19 + 5 * numAt body 18 1 → numAt body 18 1 ≤ 24 →
          let x := readCampaign body
          put = if x.value.id = 0 ∨ distinct (memberSlotsAt body) = false ∨ (∃ v ∈ memberSlotsAt body, 23 < v)
            then .next (answer .badValue)
            else taken x.clamped .campaign { s.site with recs := { r with campaign := some x.value } })))

/-- The images that SAVE_NEXT sends are read back by RESTORE_PUT as they were (12.4, R183, R192): a TICKET image of a ticket
that the rules can make, and a SCHEDULE image of a list in order. -/
def Obligations.ImagesAreReadBack : Prop :=
  (∀ t : Ticket, 1 ≤ t.number → t.number ≤ 65535 → 1 ≤ t.occurrences → t.occurrences ≤ 255 →
    (t.resolvedAt.isSome = true → t.state = .resolved) →
    (28 ≤ t.cls.val → t.origin = .part ∧ t.code = 0#16 ∧ t.severity ≠ .stop) → (t.cls.val < 28 → t.origin = .oven) →
    (readTicket t.image).value = t ∧ (readTicket t.image).clamped = false ∧ t.image.length = 25)
  ∧ ∀ l : List SchedEntry, scheduleOk l = true → ∃ xs, readSchedule (scheduleImage l) l.length 1 = some xs
      ∧ xs.map Read.value = l ∧ xs.any Read.clamped = false ∧ (xs.map Read.value).foldr insertSched [] = l

/-- GO_LIVE (R185): refused with WRONG_STATE in the LIVE phase; in the RESTORE phase the phase becomes LIVE, every record stands in
REJOINING, ADDRESSING or FAILED, no obligation is GRANTED, no ticket names a free slot, the round number is 0, and the response
gives the dirty count after the last step, in the 1 byte that R187 gives its range (log 11). -/
def Obligations.GoLiveReconcilesTheRecords : Prop :=
  ∀ s : State, s.takes .goLive = true →
    (s.site.env.phase = .live → exec .goLive s = .next (s.answer 0x6A#8 .wrongState [] s.site))
    ∧ (s.site.env.phase = .restore →
      ∃ r : Recs, exec .goLive s
          = .next (s.answer 0x6A#8 .ok (u8 r.persist.count) { env := { s.site.env with phase := .live }, recs := r })
        ∧ (∀ (i : Fin 24) (o : Oven), r.oven i = some o →
            o.lifecycle = .rejoining ∨ o.lifecycle = .addressing ∨ o.lifecycle = .failed)
        ∧ (∀ i : Fin 24, (r.oven i).map Oven.serial = (s.site.recs.oven i).map Oven.serial)
        ∧ r.grantsOut = 0 ∧ (∀ (j : Fin 64) (t : Ticket), r.ticket j = some t → (r.oven t.slot).isSome = true)
        ∧ r.obm.round = 0 ∧ r.latches = s.site.recs.latches)

/-! ## Invariants that every step keeps -/

/-- READY means that a response waits and BUSY that a request does, and they are never set together (R167). -/
def Obligations.PortStaysConsistent : Prop :=
  ∀ s t : State, s.port.consistent = true → step s = .next t → t.port.consistent = true

/-- Every setting and the clock's fields stay within the ranges of the spec, the thresholds and the schedule in strict order
(R43, R45 to R47, R92, R107), whatever a host writes or restores. -/
def Obligations.SettingsStayInRange : Prop :=
  ∀ s t : State, s.site.env.inRange = true → step s = .next t → t.site.env.inRange = true

/-- The dirty count equals the number of the 219 flags that are DIRTY (R179). -/
def Obligations.DirtyCountStaysExact : Prop :=
  ∀ s t : State, s.site.recs.persist.exact → step s = .next t → t.site.recs.persist.exact

/-- For each oven slot and fault class at most one ticket is not RESOLVED (R125).

No two occupied slots hold one serial, and the discovery list names no record's serial and none twice (R1, R3). -/
def Obligations.LiveTicketsStayUnique : Prop :=
  (∀ s t : State, s.site.recs.liveTicketsUnique → step s = .next t → t.site.recs.liveTicketsUnique)
  ∧ ∀ s t : State, s.site.recs.serialsUnique s.site.env.phase → step s = .next t → t.site.recs.serialsUnique t.site.env.phase

/-- In the LIVE phase the outstanding grants never exceed the current mode's cleaning limit less the ovens cleaning, or zero
(R112). -/
def Obligations.GrantsStayWithinTheRoom : Prop :=
  ∀ s t : State, (s.site.env.phase = .live → s.site.recs.grantsOut ≤ s.site.env.profile.limit - s.site.recs.cleaningCount) →
    step s = .next t → t.site.env.phase = .live → t.site.recs.grantsOut ≤ t.site.env.profile.limit - t.site.recs.cleaningCount

/-- In the LIVE phase an IN_SERVICE oven without an obligation has a soil score below T1 and a hygiene counter above zero
(R99), while the settings are in range. -/
def Obligations.OvensInServiceWithoutObligationStayClean : Prop :=
  ∀ s t : State, s.site.env.inRange = true → (s.site.env.phase = .live → Recs.cleanWhileUnobliged s.site.env s.site.recs) →
    step s = .next t → t.site.env.phase = .live → Recs.cleanWhileUnobliged t.site.env t.site.recs

/-- The state after power-on meets the eight invariants. -/
def Obligations.ResetMeetsTheInvariants : Prop :=
  State.reset.port.consistent = true ∧ State.reset.site.env.inRange = true ∧ State.reset.site.recs.persist.exact
    ∧ State.reset.site.recs.liveTicketsUnique
    ∧ (State.reset.site.env.phase = .live →
        State.reset.site.recs.grantsOut ≤ State.reset.site.env.profile.limit - State.reset.site.recs.cleaningCount)
    ∧ Recs.cleanWhileUnobliged State.reset.site.env State.reset.site.recs
    ∧ State.reset.site.recs.serialsUnique State.reset.site.env.phase ∧ State.reset.site.recs.campaignInForm

/-- The phase becomes LIVE by GO_LIVE alone and returns to RESTORE by power-on, RESET_N or RESET FULL alone (R182). -/
def Obligations.OnlyGoLiveAndResetsChangeThePhase : Prop :=
  ∀ (c : Instr) (s t : State), exec c s = .next t →
    (s.site.env.phase = .restore → t.site.env.phase = .live → c = .goLive)
      ∧ (s.site.env.phase = .live → t.site.env.phase = .restore →
          c = .powerOn ∨ c = .resetNAsserted ∨ c = .resetNReleased ∨ c = .resetFull)
end

