-- ==== Sys2Proof/Laws/State.lean ====
section
/-!
SUPPORT. What each update of the state leaves in each field: one lemma for each, true by definition.
-/
namespace Sys2Proof.Machine

/-! ## Records -/

@[simp] theorem Recs.putOven_ovens (r : Recs) (i : Fin 24) (o : Option Oven) : (r.putOven i o).ovens = r.ovens.set i o := rfl
@[simp] theorem Recs.putOven_discovered (r : Recs) (i : Fin 24) (o : Option Oven) : (r.putOven i o).discovered = r.discovered := rfl
@[simp] theorem Recs.putOven_ignored (r : Recs) (i : Fin 24) (o : Option Oven) : (r.putOven i o).ignored = r.ignored := rfl
@[simp] theorem Recs.putOven_recipes (r : Recs) (i : Fin 24) (o : Option Oven) : (r.putOven i o).recipes = r.recipes := rfl
@[simp] theorem Recs.putOven_tickets (r : Recs) (i : Fin 24) (o : Option Oven) : (r.putOven i o).tickets = r.tickets := rfl
@[simp] theorem Recs.putOven_nextTicket (r : Recs) (i : Fin 24) (o : Option Oven) : (r.putOven i o).nextTicket = r.nextTicket := rfl
@[simp] theorem Recs.putOven_latches (r : Recs) (i : Fin 24) (o : Option Oven) : (r.putOven i o).latches = r.latches := rfl
@[simp] theorem Recs.putOven_campaign (r : Recs) (i : Fin 24) (o : Option Oven) : (r.putOven i o).campaign = r.campaign := rfl
@[simp] theorem Recs.putOven_first (r : Recs) (i : Fin 24) (o : Option Oven) : (r.putOven i o).first = r.first := rfl
@[simp] theorem Recs.putOven_sequence (r : Recs) (i : Fin 24) (o : Option Oven) : (r.putOven i o).sequence = r.sequence := rfl
@[simp] theorem Recs.putOven_obm (r : Recs) (i : Fin 24) (o : Option Oven) : (r.putOven i o).obm = r.obm := rfl
@[simp] theorem Recs.putOven_persist (r : Recs) (i : Fin 24) (o : Option Oven) : (r.putOven i o).persist = r.persist := rfl
@[simp] theorem Recs.putOven_latched (r : Recs) (i : Fin 24) (o : Option Oven) : (r.putOven i o).latched = r.latched := rfl

@[simp] theorem Recs.putRecipe_ovens (r : Recs) (k : Fin 128) (x : Option Recipe) : (r.putRecipe k x).ovens = r.ovens := rfl
@[simp] theorem Recs.putRecipe_discovered (r : Recs) (k : Fin 128) (x : Option Recipe) : (r.putRecipe k x).discovered = r.discovered := rfl
@[simp] theorem Recs.putRecipe_ignored (r : Recs) (k : Fin 128) (x : Option Recipe) : (r.putRecipe k x).ignored = r.ignored := rfl
@[simp] theorem Recs.putRecipe_recipes (r : Recs) (k : Fin 128) (x : Option Recipe) : (r.putRecipe k x).recipes = r.recipes.set k x := rfl
@[simp] theorem Recs.putRecipe_tickets (r : Recs) (k : Fin 128) (x : Option Recipe) : (r.putRecipe k x).tickets = r.tickets := rfl
@[simp] theorem Recs.putRecipe_nextTicket (r : Recs) (k : Fin 128) (x : Option Recipe) : (r.putRecipe k x).nextTicket = r.nextTicket := rfl
@[simp] theorem Recs.putRecipe_latches (r : Recs) (k : Fin 128) (x : Option Recipe) : (r.putRecipe k x).latches = r.latches := rfl
@[simp] theorem Recs.putRecipe_campaign (r : Recs) (k : Fin 128) (x : Option Recipe) : (r.putRecipe k x).campaign = r.campaign := rfl
@[simp] theorem Recs.putRecipe_first (r : Recs) (k : Fin 128) (x : Option Recipe) : (r.putRecipe k x).first = r.first := rfl
@[simp] theorem Recs.putRecipe_sequence (r : Recs) (k : Fin 128) (x : Option Recipe) : (r.putRecipe k x).sequence = r.sequence := rfl
@[simp] theorem Recs.putRecipe_obm (r : Recs) (k : Fin 128) (x : Option Recipe) : (r.putRecipe k x).obm = r.obm := rfl
@[simp] theorem Recs.putRecipe_persist (r : Recs) (k : Fin 128) (x : Option Recipe) : (r.putRecipe k x).persist = r.persist := rfl
@[simp] theorem Recs.putRecipe_latched (r : Recs) (k : Fin 128) (x : Option Recipe) : (r.putRecipe k x).latched = r.latched := rfl

@[simp] theorem Recs.putTicket_ovens (r : Recs) (k : Fin 64) (t : Option Ticket) : (r.putTicket k t).ovens = r.ovens := rfl
@[simp] theorem Recs.putTicket_discovered (r : Recs) (k : Fin 64) (t : Option Ticket) : (r.putTicket k t).discovered = r.discovered := rfl
@[simp] theorem Recs.putTicket_ignored (r : Recs) (k : Fin 64) (t : Option Ticket) : (r.putTicket k t).ignored = r.ignored := rfl
@[simp] theorem Recs.putTicket_recipes (r : Recs) (k : Fin 64) (t : Option Ticket) : (r.putTicket k t).recipes = r.recipes := rfl
@[simp] theorem Recs.putTicket_tickets (r : Recs) (k : Fin 64) (t : Option Ticket) : (r.putTicket k t).tickets = r.tickets.set k t := rfl
@[simp] theorem Recs.putTicket_nextTicket (r : Recs) (k : Fin 64) (t : Option Ticket) : (r.putTicket k t).nextTicket = r.nextTicket := rfl
@[simp] theorem Recs.putTicket_latches (r : Recs) (k : Fin 64) (t : Option Ticket) : (r.putTicket k t).latches = r.latches := rfl
@[simp] theorem Recs.putTicket_campaign (r : Recs) (k : Fin 64) (t : Option Ticket) : (r.putTicket k t).campaign = r.campaign := rfl
@[simp] theorem Recs.putTicket_first (r : Recs) (k : Fin 64) (t : Option Ticket) : (r.putTicket k t).first = r.first := rfl
@[simp] theorem Recs.putTicket_sequence (r : Recs) (k : Fin 64) (t : Option Ticket) : (r.putTicket k t).sequence = r.sequence := rfl
@[simp] theorem Recs.putTicket_obm (r : Recs) (k : Fin 64) (t : Option Ticket) : (r.putTicket k t).obm = r.obm := rfl
@[simp] theorem Recs.putTicket_persist (r : Recs) (k : Fin 64) (t : Option Ticket) : (r.putTicket k t).persist = r.persist := rfl
@[simp] theorem Recs.putTicket_latched (r : Recs) (k : Fin 64) (t : Option Ticket) : (r.putTicket k t).latched = r.latched := rfl

@[simp] theorem Recs.mark_ovens (r : Recs) (ix : Index) : (r.mark ix).ovens = r.ovens := rfl
@[simp] theorem Recs.mark_discovered (r : Recs) (ix : Index) : (r.mark ix).discovered = r.discovered := rfl
@[simp] theorem Recs.mark_ignored (r : Recs) (ix : Index) : (r.mark ix).ignored = r.ignored := rfl
@[simp] theorem Recs.mark_recipes (r : Recs) (ix : Index) : (r.mark ix).recipes = r.recipes := rfl
@[simp] theorem Recs.mark_tickets (r : Recs) (ix : Index) : (r.mark ix).tickets = r.tickets := rfl
@[simp] theorem Recs.mark_nextTicket (r : Recs) (ix : Index) : (r.mark ix).nextTicket = r.nextTicket := rfl
@[simp] theorem Recs.mark_latches (r : Recs) (ix : Index) : (r.mark ix).latches = r.latches := rfl
@[simp] theorem Recs.mark_campaign (r : Recs) (ix : Index) : (r.mark ix).campaign = r.campaign := rfl
@[simp] theorem Recs.mark_first (r : Recs) (ix : Index) : (r.mark ix).first = r.first := rfl
@[simp] theorem Recs.mark_sequence (r : Recs) (ix : Index) : (r.mark ix).sequence = r.sequence := rfl
@[simp] theorem Recs.mark_obm (r : Recs) (ix : Index) : (r.mark ix).obm = r.obm := rfl
@[simp] theorem Recs.mark_persist (r : Recs) (ix : Index) : (r.mark ix).persist = r.persist.mark ix := rfl
@[simp] theorem Recs.mark_latched (r : Recs) (ix : Index) : (r.mark ix).latched = r.latched := rfl

@[simp] theorem Recs.latch_ovens (r : Recs) (c : Cause) : (r.latch c).ovens = r.ovens := rfl
@[simp] theorem Recs.latch_discovered (r : Recs) (c : Cause) : (r.latch c).discovered = r.discovered := rfl
@[simp] theorem Recs.latch_ignored (r : Recs) (c : Cause) : (r.latch c).ignored = r.ignored := rfl
@[simp] theorem Recs.latch_recipes (r : Recs) (c : Cause) : (r.latch c).recipes = r.recipes := rfl
@[simp] theorem Recs.latch_tickets (r : Recs) (c : Cause) : (r.latch c).tickets = r.tickets := rfl
@[simp] theorem Recs.latch_nextTicket (r : Recs) (c : Cause) : (r.latch c).nextTicket = r.nextTicket := rfl
@[simp] theorem Recs.latch_latches (r : Recs) (c : Cause) : (r.latch c).latches = r.latches := rfl
@[simp] theorem Recs.latch_campaign (r : Recs) (c : Cause) : (r.latch c).campaign = r.campaign := rfl
@[simp] theorem Recs.latch_first (r : Recs) (c : Cause) : (r.latch c).first = r.first := rfl
@[simp] theorem Recs.latch_sequence (r : Recs) (c : Cause) : (r.latch c).sequence = r.sequence := rfl
@[simp] theorem Recs.latch_obm (r : Recs) (c : Cause) : (r.latch c).obm = r.obm := rfl
@[simp] theorem Recs.latch_persist (r : Recs) (c : Cause) : (r.latch c).persist = r.persist := rfl
@[simp] theorem Recs.latch_latched (r : Recs) (c : Cause) : (r.latch c).latched = r.latched ||| c.bit := rfl

@[simp] theorem Recs.modObm_ovens (r : Recs) (f : Obm → Obm) : (r.modObm f).ovens = r.ovens := rfl
@[simp] theorem Recs.modObm_discovered (r : Recs) (f : Obm → Obm) : (r.modObm f).discovered = r.discovered := rfl
@[simp] theorem Recs.modObm_ignored (r : Recs) (f : Obm → Obm) : (r.modObm f).ignored = r.ignored := rfl
@[simp] theorem Recs.modObm_recipes (r : Recs) (f : Obm → Obm) : (r.modObm f).recipes = r.recipes := rfl
@[simp] theorem Recs.modObm_tickets (r : Recs) (f : Obm → Obm) : (r.modObm f).tickets = r.tickets := rfl
@[simp] theorem Recs.modObm_nextTicket (r : Recs) (f : Obm → Obm) : (r.modObm f).nextTicket = r.nextTicket := rfl
@[simp] theorem Recs.modObm_latches (r : Recs) (f : Obm → Obm) : (r.modObm f).latches = r.latches := rfl
@[simp] theorem Recs.modObm_campaign (r : Recs) (f : Obm → Obm) : (r.modObm f).campaign = r.campaign := rfl
@[simp] theorem Recs.modObm_first (r : Recs) (f : Obm → Obm) : (r.modObm f).first = r.first := rfl
@[simp] theorem Recs.modObm_sequence (r : Recs) (f : Obm → Obm) : (r.modObm f).sequence = r.sequence := rfl
@[simp] theorem Recs.modObm_obm (r : Recs) (f : Obm → Obm) : (r.modObm f).obm = f r.obm := rfl
@[simp] theorem Recs.modObm_persist (r : Recs) (f : Obm → Obm) : (r.modObm f).persist = r.persist := rfl
@[simp] theorem Recs.modObm_latched (r : Recs) (f : Obm → Obm) : (r.modObm f).latched = r.latched := rfl

@[simp] theorem Recs.modCampaign_ovens (r : Recs) (f : Campaign → Campaign) : (r.modCampaign f).ovens = r.ovens := rfl
@[simp] theorem Recs.modCampaign_discovered (r : Recs) (f : Campaign → Campaign) : (r.modCampaign f).discovered = r.discovered := rfl
@[simp] theorem Recs.modCampaign_ignored (r : Recs) (f : Campaign → Campaign) : (r.modCampaign f).ignored = r.ignored := rfl
@[simp] theorem Recs.modCampaign_recipes (r : Recs) (f : Campaign → Campaign) : (r.modCampaign f).recipes = r.recipes := rfl
@[simp] theorem Recs.modCampaign_tickets (r : Recs) (f : Campaign → Campaign) : (r.modCampaign f).tickets = r.tickets := rfl
@[simp] theorem Recs.modCampaign_nextTicket (r : Recs) (f : Campaign → Campaign) : (r.modCampaign f).nextTicket = r.nextTicket := rfl
@[simp] theorem Recs.modCampaign_latches (r : Recs) (f : Campaign → Campaign) : (r.modCampaign f).latches = r.latches := rfl
@[simp] theorem Recs.modCampaign_campaign (r : Recs) (f : Campaign → Campaign) : (r.modCampaign f).campaign = r.campaign.map f := rfl
@[simp] theorem Recs.modCampaign_first (r : Recs) (f : Campaign → Campaign) : (r.modCampaign f).first = r.first := rfl
@[simp] theorem Recs.modCampaign_sequence (r : Recs) (f : Campaign → Campaign) : (r.modCampaign f).sequence = r.sequence := rfl
@[simp] theorem Recs.modCampaign_obm (r : Recs) (f : Campaign → Campaign) : (r.modCampaign f).obm = r.obm := rfl
@[simp] theorem Recs.modCampaign_persist (r : Recs) (f : Campaign → Campaign) : (r.modCampaign f).persist = r.persist := rfl
@[simp] theorem Recs.modCampaign_latched (r : Recs) (f : Campaign → Campaign) : (r.modCampaign f).latched = r.latched := rfl

/-! ## The site -/

@[simp] theorem Site.modRecs_env (st : Site) (f : Recs → Recs) : (st.modRecs f).env = st.env := rfl
@[simp] theorem Site.modRecs_recs (st : Site) (f : Recs → Recs) : (st.modRecs f).recs = f st.recs := rfl
@[simp] theorem Site.holding_env (st : Site) (f : Env → Recs → Recs) : (st.holding f).env = st.env := rfl
@[simp] theorem Site.holding_recs (st : Site) (f : Env → Recs → Recs) : (st.holding f).recs = st.recs.withHolds st.env (f st.env) := rfl
@[simp] theorem Site.changeSettings_env (st : Site) (f : Env → Env) : (st.changeSettings f).env = f st.env := rfl
@[simp] theorem Site.changeSettings_recs (st : Site) (f : Env → Env) : (st.changeSettings f).recs = st.recs.mark .settings := rfl
@[simp] theorem Site.cleanIndex_env (st : Site) (ix : Index) : (st.cleanIndex ix).env = st.env := rfl

/-! ## The machine -/

@[simp] theorem State.answer_site (s : State) (code : Byte) (status : Status) (payload : List Byte) (site : Site) : (s.answer code status payload site).site = site := rfl
@[simp] theorem State.answer_pending (s : State) (code : Byte) (status : Status) (payload : List Byte) (site : Site) : (s.answer code status payload site).pending = s.pending := rfl
@[simp] theorem State.withRecs_port (s : State) (r : Recs) : (s.withRecs r).port = s.port := rfl
@[simp] theorem State.withRecs_site (s : State) (r : Recs) : (s.withRecs r).site = { s.site with recs := r } := rfl
@[simp] theorem State.withRecs_pending (s : State) (r : Recs) : (s.withRecs r).pending = s.pending := rfl
@[simp] theorem State.drop_port (s : State) : (s.drop).port = { s.port with overrun := true } := rfl
@[simp] theorem State.drop_site (s : State) : (s.drop).site = s.site := rfl
@[simp] theorem State.drop_pending (s : State) : (s.drop).pending = s.pending := rfl
@[simp] theorem State.shiftOut_port (s : State) (out : List Byte) (n : Nat) : (s.shiftOut out n).port = { s.port with shifted := s.statusByte :: padTo n out } := rfl
@[simp] theorem State.shiftOut_site (s : State) (out : List Byte) (n : Nat) : (s.shiftOut out n).site = s.site := rfl
@[simp] theorem State.shiftOut_pending (s : State) (out : List Byte) (n : Nat) : (s.shiftOut out n).pending = s.pending := rfl
@[simp] theorem State.answer_port_state (s : State) (code : Byte) (status : Status) (payload : List Byte) (site : Site) :
    (s.answer code status payload site).port.state = .ready := rfl
@[simp] theorem State.answer_port_request (s : State) (code : Byte) (status : Status) (payload : List Byte) (site : Site) :
    (s.answer code status payload site).port.request = none := rfl
@[simp] theorem State.answer_port_response (s : State) (code : Byte) (status : Status) (payload : List Byte) (site : Site) :
    (s.answer code status payload site).port.response = some { code := code, status := status, payload := payload } := rfl
@[simp] theorem State.answer_port_overrun (s : State) (code : Byte) (status : Status) (payload : List Byte) (site : Site) :
    (s.answer code status payload site).port.overrun = s.port.overrun := rfl
@[simp] theorem State.answer_port_shifted (s : State) (code : Byte) (status : Status) (payload : List Byte) (site : Site) :
    (s.answer code status payload site).port.shifted = s.port.shifted := rfl

/-! ## Reading a slot after a write -/

@[simp] theorem Recs.putOven_oven_self (r : Recs) (i : Fin 24) (o : Option Oven) : (r.putOven i o).oven i = o := by
  simp [Recs.oven]

theorem Recs.putOven_oven_ne (r : Recs) {i j : Fin 24} (o : Option Oven) (h : i ≠ j) : (r.putOven i o).oven j = r.oven j := by
  have : i.val ≠ j.val := fun e => h (Fin.ext e)
  simp [Recs.oven, this]

theorem Recs.putOven_oven (r : Recs) (i j : Fin 24) (o : Option Oven) :
    (r.putOven i o).oven j = if i = j then o else r.oven j := by
  by_cases h : i = j
  · subst h; simp
  · rw [if_neg h]; exact r.putOven_oven_ne o h

@[simp] theorem Recs.putRecipe_recipe_self (r : Recs) (k : Fin 128) (x : Option Recipe) : (r.putRecipe k x).recipe k = x := by
  simp [Recs.recipe]

theorem Recs.putRecipe_recipe (r : Recs) (k j : Fin 128) (x : Option Recipe) :
    (r.putRecipe k x).recipe j = if k = j then x else r.recipe j := by
  by_cases h : k = j
  · subst h; simp
  · have : k.val ≠ j.val := fun e => h (Fin.ext e)
    simp [Recs.recipe, this, h]

@[simp] theorem Recs.putTicket_ticket_self (r : Recs) (k : Fin 64) (t : Option Ticket) : (r.putTicket k t).ticket k = t := by
  simp [Recs.ticket]

theorem Recs.putTicket_ticket (r : Recs) (k j : Fin 64) (t : Option Ticket) :
    (r.putTicket k t).ticket j = if k = j then t else r.ticket j := by
  by_cases h : k = j
  · subst h; simp
  · have : k.val ≠ j.val := fun e => h (Fin.ext e)
    simp [Recs.ticket, this, h]

/-! ## Slots through updates of other fields -/

@[simp] theorem Recs.putOven_recipe (r : Recs) (i : Fin 24) (o : Option Oven) (k' : Fin 128) : (r.putOven i o).recipe k' = r.recipe k' := rfl
@[simp] theorem Recs.putOven_ticket (r : Recs) (i : Fin 24) (o : Option Oven) (k' : Fin 64) : (r.putOven i o).ticket k' = r.ticket k' := rfl
@[simp] theorem Recs.putRecipe_oven (r : Recs) (k : Fin 128) (x : Option Recipe) (i' : Fin 24) : (r.putRecipe k x).oven i' = r.oven i' := rfl
@[simp] theorem Recs.putRecipe_ticket (r : Recs) (k : Fin 128) (x : Option Recipe) (k' : Fin 64) : (r.putRecipe k x).ticket k' = r.ticket k' := rfl
@[simp] theorem Recs.putTicket_oven (r : Recs) (k : Fin 64) (t : Option Ticket) (i' : Fin 24) : (r.putTicket k t).oven i' = r.oven i' := rfl
@[simp] theorem Recs.putTicket_recipe (r : Recs) (k : Fin 64) (t : Option Ticket) (k' : Fin 128) : (r.putTicket k t).recipe k' = r.recipe k' := rfl
@[simp] theorem Recs.mark_oven (r : Recs) (ix : Index) (i' : Fin 24) : (r.mark ix).oven i' = r.oven i' := rfl
@[simp] theorem Recs.mark_recipe (r : Recs) (ix : Index) (k' : Fin 128) : (r.mark ix).recipe k' = r.recipe k' := rfl
@[simp] theorem Recs.mark_ticket (r : Recs) (ix : Index) (k' : Fin 64) : (r.mark ix).ticket k' = r.ticket k' := rfl
@[simp] theorem Recs.latch_oven (r : Recs) (c : Cause) (i' : Fin 24) : (r.latch c).oven i' = r.oven i' := rfl
@[simp] theorem Recs.latch_recipe (r : Recs) (c : Cause) (k' : Fin 128) : (r.latch c).recipe k' = r.recipe k' := rfl
@[simp] theorem Recs.latch_ticket (r : Recs) (c : Cause) (k' : Fin 64) : (r.latch c).ticket k' = r.ticket k' := rfl
@[simp] theorem Recs.modObm_oven (r : Recs) (f : Obm → Obm) (i' : Fin 24) : (r.modObm f).oven i' = r.oven i' := rfl
@[simp] theorem Recs.modObm_recipe (r : Recs) (f : Obm → Obm) (k' : Fin 128) : (r.modObm f).recipe k' = r.recipe k' := rfl
@[simp] theorem Recs.modObm_ticket (r : Recs) (f : Obm → Obm) (k' : Fin 64) : (r.modObm f).ticket k' = r.ticket k' := rfl
@[simp] theorem Recs.modCampaign_oven (r : Recs) (f : Campaign → Campaign) (i' : Fin 24) : (r.modCampaign f).oven i' = r.oven i' := rfl
@[simp] theorem Recs.modCampaign_recipe (r : Recs) (f : Campaign → Campaign) (k' : Fin 128) : (r.modCampaign f).recipe k' = r.recipe k' := rfl
@[simp] theorem Recs.modCampaign_ticket (r : Recs) (f : Campaign → Campaign) (k' : Fin 64) : (r.modCampaign f).ticket k' = r.ticket k' := rfl

end Sys2Proof.Machine
end

