-- ==== Sys2Proof/Laws/Port.lean ====
section
/-!
SUPPORT. What taking a request, dropping one, a transaction and an event can do, each said once (R167, R168, R177).
-/
namespace Sys2Proof.Machine

theorem Env.live_iff (e : Env) : e.live = true ↔ e.phase = .live := by simp [Env.live]

theorem Env.not_live_iff (e : Env) : e.live = false ↔ e.phase = .restore := by
  cases h : e.phase <;> simp [Env.live, h]

/-- A request that the port takes is answered with what its owner makes of it. -/
theorem State.hostTake_of_takes {c : Instr} {s : State} (owner : Site → Taken) (h : s.takes c = true) :
    s.hostTake c owner = s.answer (requestCode c) (owner s.site).2.status (owner s.site).2.payload (owner s.site).1 := by
  simp only [State.takes, Bool.and_eq_true, Bool.or_eq_true, Bool.not_eq_true', decide_eq_true_eq] at h
  obtain ⟨hh, h | ⟨h, h'⟩⟩ := h
  · simp only [State.hostTake, hh, h]; rfl
  · simp only [State.hostTake, hh, h, h']; rfl

/-- All that a host request can do: nothing while RESET_N is held, be answered, or be dropped with OVERRUN. -/
theorem State.hostTake_cases (c : Instr) (owner : Site → Taken) (s : State) :
    (s.site.env.held = true ∧ s.hostTake c owner = s)
      ∨ (s.takes c = true ∧ s.hostTake c owner = s.place c (owner s.site))
      ∨ (s.port.state ≠ .idle ∧ s.hostTake c owner = s.drop) := by
  unfold State.hostTake
  cases hh : s.site.env.held with
  | true => exact .inl ⟨rfl, by simp⟩
  | false =>
    refine .inr ?_
    cases hp : s.port.state with
    | idle => exact .inl ⟨by simp [State.takes, hh, hp], by simp⟩
    | busy =>
      by_cases hr : s.port.request = some c
      · exact .inl ⟨by simp [State.takes, hh, hp, hr], by simp [hr]⟩
      · exact .inr ⟨by simp, by simp [hr]⟩
    | ready => exact .inr ⟨by simp, by simp⟩

/-- An event leaves the port and the queue; it happens unless RESET_N is held. -/
theorem State.event_eq (f : Site → Site) (s : State) :
    s.event f = { s with site := if s.site.env.held then s.site else f s.site } := by
  unfold State.event; split <;> rfl

@[simp] theorem State.event_port (f : Site → Site) (s : State) : (s.event f).port = s.port := by rw [State.event_eq]
@[simp] theorem State.event_pending (f : Site → Site) (s : State) : (s.event f).pending = s.pending := by rw [State.event_eq]

@[simp] theorem State.hostTake_pending (c : Instr) (owner : Site → Taken) (s : State) :
    (s.hostTake c owner).pending = s.pending := by
  obtain ⟨-, h⟩ | ⟨-, h⟩ | ⟨-, h⟩ := s.hostTake_cases c owner <;> rw [h] <;> rfl

/-- A transaction touches neither the site nor the queue. -/
theorem State.transact_site (bytes : List Byte) (s : State) : (s.transact bytes).site = s.site := by
  unfold State.transact State.readResponse State.writeRequest State.shiftOut State.drop
  repeat (first | rfl | split)

theorem State.transact_pending (bytes : List Byte) (s : State) : (s.transact bytes).pending = s.pending := by
  unfold State.transact State.readResponse State.writeRequest State.shiftOut State.drop
  repeat (first | rfl | split)

/-- An event of the LIVE phase while the part runs. -/
theorem State.event_live {s : State} (f : Env → Recs → Recs) (h : s.running = true) :
    s.event (fun st => st.live f) = s.withRecs (Recs.tellHolds s.site.env s.site.recs (f s.site.env s.site.recs)) := by
  simp only [State.running, Bool.and_eq_true, Bool.not_eq_true'] at h
  simp only [State.event, h.1, Site.live, h.2, Site.holding, Recs.withHolds]
  rfl

/-- An event of the oven bus while the part runs. -/
theorem State.event_bus {s : State} (f : Env → Recs → Recs) (h : s.running = true) :
    s.event (fun st => st.bus f) = s.withRecs (f s.site.env s.site.recs) := by
  simp only [State.running, Bool.and_eq_true, Bool.not_eq_true'] at h
  simp only [State.event, h.1, Site.bus, h.2, Site.modRecs]
  rfl

theorem State.takesLive_iff {c : Instr} {s : State} : s.takesLive c = true ↔ s.takes c = true ∧ s.site.env.live = true := by
  simp [State.takesLive]

end Sys2Proof.Machine
end

