-- ==== Sys2Proof/Laws/Ops.lean ====
section
/-!
SUPPORT. One lemma for each shared operation, saying what it can do: numbers and operands, persist flags (R179), tickets
(R127, R128), grants and the arbiter (R112 to R116), admission and activation (R149, R158).
-/
namespace Sys2Proof.Machine

/-! ## Numbers and operands -/

theorem clamp_zero (h v : Nat) : clamp 0 h v = min h v := by
  simp only [clamp]; split <;> (try split) <;> omega

theorem clamp_eq {l h v : Nat} (hlh : l ≤ h) : clamp l h v = max l (min h v) := by
  simp only [clamp]; split <;> (try split) <;> omega

theorem clamp_le {l h v : Nat} (hlh : l ≤ h) : clamp l h v ≤ h := by
  simp only [clamp]; split <;> (try split) <;> omega

theorem le_clamp {l h v : Nat} (hlh : l ≤ h) : l ≤ clamp l h v := by
  simp only [clamp]; split <;> (try split) <;> omega

theorem clamp_of_mem {l h v : Nat} (hl : l ≤ v) (hh : v ≤ h) : clamp l h v = v := by
  simp only [clamp]; split <;> (try split) <;> omega

/-- The minute of day after some advances of the site minute: the 32-bit sum wraps once at most (R43). -/
theorem Env.minuteOfDay_after (e : Env) (j : Nat) :
    ({ e with minute := e.minute + BitVec.ofNat 32 j } : Env).minuteOfDay
      = ((e.minute + BitVec.ofNat 32 e.offset).toNat + j) % 4294967296 % 1440 := by
  have h : e.minute + BitVec.ofNat 32 j + BitVec.ofNat 32 e.offset = e.minute + BitVec.ofNat 32 e.offset + BitVec.ofNat 32 j := by
    rw [BitVec.add_assoc, BitVec.add_comm (BitVec.ofNat 32 j), ← BitVec.add_assoc]
  simp only [Env.minuteOfDay, h]
  rw [BitVec.toNat_add _ (BitVec.ofNat 32 j), BitVec.toNat_ofNat, Nat.add_mod_mod]

/-- The advances to a minute of day reach it, and none before them does (R43, R50). -/
theorem Env.advancesTo_reaches (e : Env) {m : Nat} (hm : m < 1440) :
    0 < e.advancesTo m ∧ ({ e with minute := e.minute + BitVec.ofNat 32 (e.advancesTo m) } : Env).minuteOfDay = m
      ∧ ∀ j, 0 < j → j < e.advancesTo m → ({ e with minute := e.minute + BitVec.ofNat 32 j } : Env).minuteOfDay ≠ m := by
  simp only [Env.minuteOfDay_after]
  have ht : (e.minute + BitVec.ofNat 32 e.offset).toNat < 4294967296 := (e.minute + BitVec.ofNat 32 e.offset).isLt
  have hd : e.minuteOfDay = (e.minute + BitVec.ofNat 32 e.offset).toNat % 1440 := rfl
  simp only [Env.advancesTo, hd]
  generalize (e.minute + BitVec.ofNat 32 e.offset).toNat = t at *
  split
  · refine ⟨by omega, ?_, fun j h0 h1 => ?_⟩
    · rw [Nat.mod_eq_of_lt (by omega : _ < 4294967296)]; omega
    · rw [Nat.mod_eq_of_lt (by omega : t + j < 4294967296)]; omega
  · refine ⟨by omega, ?_, fun j h0 h1 => ?_⟩
    · rw [show (t + (4294967295 - t + 1 + m)) % 4294967296 = m by omega]; omega
    · by_cases hj : t + j < 4294967296
      · omega
      · rw [show (t + j) % 4294967296 = t + j - 4294967296 by omega]; omega

/-- A slot number travels as its byte. -/
theorem slotOf_ofNat (i : Fin 24) : slotOf (BitVec.ofNat 8 i.val) = some i := by revert i; decide

/-- A zone number travels as its byte. -/
theorem zoneOf_ofNat (z : Fin 4) : zoneOf (BitVec.ofNat 8 z.val) = some z := by revert z; decide

/-- An answer whose fields fit the payload limit carries them (R170). -/
theorem Site.ok_of_short (st : Site) {p : List Byte} (h : p.length ≤ 512) : st.ok p = (st, { status := .ok, payload := p }) := by
  simp [Site.ok, Reply.ok, Config.payloadLimit, h]

theorem leBytes_length (n v : Nat) : (leBytes n v).length = n := by
  induction n generalizing v with
  | zero => rfl
  | succ n ih => simp [leBytes, ih]

/-- A number is read back from its bytes. -/
theorem leNat_leBytes (n v : Nat) (h : v < 256 ^ n) : leNat (leBytes n v) = v := by
  induction n generalizing v with
  | zero => simp [leBytes, leNat] at *; omega
  | succ n ih =>
    have := ih (v / 256) (by rw [Nat.pow_succ] at h; omega)
    simp only [leBytes, leNat, this, BitVec.toNat_ofNat]
    omega

/-! ## Persist flags (R179, R180) -/

theorem Persist.count_set {n : Nat} (v : Vector Bool n) (i : Fin n) (b : Bool) :
    (v.set i b).toList.countP id + v[i].toNat = v.toList.countP id + b.toNat := by
  have hi : i.val < v.toList.length := by simp
  have hp : v[i] = true → 0 < v.toList.countP id := by
    intro h
    exact List.countP_pos_iff.mpr ⟨v[i], by simp, h⟩
  rw [Vector.toList_set, List.countP_set hi]
  have : v.toList[i.val] = v[i] := by simp
  rw [this]
  cases hv : v[i] <;> cases b <;> simp_all

/-- A flag written moves the number of DIRTY flags by what it changed. -/
theorem Persist.put_dirtyFlags (p : Persist) (ix : Index) (b : Bool) :
    (p.put ix b).dirtyFlags + (p.get ix).toNat = p.dirtyFlags + b.toNat := by
  cases ix with
  | settings => simp only [Persist.put, Persist.dirtyFlags, Persist.get]; omega
  | schedule => simp only [Persist.put, Persist.dirtyFlags, Persist.get]; omega
  | oven i => have := Persist.count_set p.ovens i b; simp only [Persist.put, Persist.dirtyFlags, Persist.get]; omega
  | recipe i => have := Persist.count_set p.recipes i b; simp only [Persist.put, Persist.dirtyFlags, Persist.get]; omega
  | ticket i => have := Persist.count_set p.tickets i b; simp only [Persist.put, Persist.dirtyFlags, Persist.get]; omega
  | campaign => simp only [Persist.put, Persist.dirtyFlags, Persist.get]; omega

theorem Persist.put_count (p : Persist) (ix : Index) (b : Bool) : (p.put ix b).count = p.count := by cases ix <;> rfl

/-- Marking keeps the count exact (R180). -/
theorem Persist.mark_exact {p : Persist} (h : p.exact) (ix : Index) : (p.mark ix).exact := by
  unfold Persist.mark
  cases hg : p.get ix with
  | true => simpa using h
  | false =>
    have := p.put_dirtyFlags ix true
    simp only [hg, Bool.toNat_false, Bool.toNat_true] at this
    unfold Persist.exact at *
    simp only [Bool.false_eq_true, if_false]
    show p.count + 1 = (p.put ix true).dirtyFlags
    omega

/-- Cleaning keeps the count exact (R179). -/
theorem Persist.clean_exact {p : Persist} (h : p.exact) (ix : Index) : (p.clean ix).exact := by
  unfold Persist.clean
  cases hg : p.get ix with
  | false => simpa using h
  | true =>
    have := p.put_dirtyFlags ix false
    simp only [hg, Bool.toNat_false, Bool.toNat_true] at this
    unfold Persist.exact at *
    simp only [if_true]
    show p.count - 1 = (p.put ix false).dirtyFlags
    omega

/-! ## Slots -/

theorem Recs.modOven_some {r : Recs} {i : Fin 24} {o : Oven} (h : r.oven i = some o) (f : Oven → Oven) :
    r.modOven i f = r.putOven i (some (f o)) := by simp [Recs.modOven, h]

theorem Recs.modOven_none {r : Recs} {i : Fin 24} (h : r.oven i = none) (f : Oven → Oven) : r.modOven i f = r := by
  simp [Recs.modOven, h]

theorem Recs.changeOven_some {r : Recs} {i : Fin 24} {o : Oven} (h : r.oven i = some o) (f : Oven → Oven) :
    r.changeOven i f = (r.putOven i (some (f o))).mark (.oven i) := by simp [Recs.changeOven, h]

theorem Recs.changeOven_none {r : Recs} {i : Fin 24} (h : r.oven i = none) (f : Oven → Oven) : r.changeOven i f = r := by
  simp [Recs.changeOven, h]

theorem Recs.changeTicket_some {r : Recs} {k : Fin 64} {t : Ticket} (h : r.ticket k = some t) (f : Ticket → Ticket) :
    r.changeTicket k f = (r.putTicket k (some (f t))).mark (.ticket k) := by simp [Recs.changeTicket, h]

theorem Recs.changeRecipe_some {r : Recs} {k : Fin 128} {x : Recipe} (h : r.recipe k = some x) (f : Recipe → Recipe) :
    r.changeRecipe k f = (r.putRecipe k (some (f x))).mark (.recipe k) := by simp [Recs.changeRecipe, h]

theorem Recs.changeCampaign_some {r : Recs} {c : Campaign} (h : r.campaign = some c) (f : Campaign → Campaign) :
    r.changeCampaign f = { r with campaign := some (f c) }.mark .campaign := by simp [Recs.changeCampaign, h]

theorem Recs.changeObl_some {r : Recs} {i : Fin 24} {o : Oven} {b : Obligation} (ho : r.oven i = some o)
    (hb : o.obligation = some b) (f : Obligation → Obligation) :
    r.changeObl i f = (r.putOven i (some { o with obligation := some (f b) })).mark (.oven i) := by
  simp [Recs.changeObl, Recs.obligation, Recs.changeOven, ho, hb]

/-- A change to an oven reads back as itself in its slot and leaves every other slot. -/
theorem Recs.modOven_oven (r : Recs) (i j : Fin 24) (f : Oven → Oven) :
    (r.modOven i f).oven j = if i = j then (r.oven i).map f else r.oven j := by
  cases h : r.oven i with
  | none => rw [Recs.modOven_none h]; split <;> simp_all
  | some o => rw [Recs.modOven_some h, Recs.putOven_oven]; rfl

theorem Recs.changeOven_oven (r : Recs) (i j : Fin 24) (f : Oven → Oven) :
    (r.changeOven i f).oven j = if i = j then (r.oven i).map f else r.oven j := by
  cases h : r.oven i with
  | none => rw [Recs.changeOven_none h]; split <;> simp_all
  | some o => rw [Recs.changeOven_some h]; show (r.putOven i (some (f o))).oven j = _; rw [Recs.putOven_oven]; rfl

/-! ## Tickets (R125) -/

/-- There is no live ticket of a slot and class. -/
theorem Recs.liveAt_none {r : Recs} {i : Fin 24} {k : Fin 32} :
    r.liveAt i k = none ↔ ∀ (j : Fin 64) (t : Ticket), r.ticket j = some t → t.slot = i → t.cls = k → t.state = .resolved := by
  simp only [Recs.liveAt, List.find?_eq_none, ticketPlaces]
  constructor
  · intro h j t ht hs hc
    have := h j (List.mem_finRange j)
    rcases Decidable.em (t.state = .resolved) with hr | hr
    · exact hr
    · simp [Recs.ticketIs, ht, hs, hc, hr] at this
  · intro h j _
    cases ht : r.ticket j with
    | none => simp [Recs.ticketIs, ht]
    | some t =>
      have := h j t ht
      simp only [Recs.ticketIs, ht, Bool.and_eq_true, decide_eq_true_eq, not_and, and_imp]
      intro a b c
      exact c (this a b)

/-- The live ticket of a slot and class. -/
theorem Recs.liveAt_some {r : Recs} {i : Fin 24} {k : Fin 32} {j : Fin 64} (h : r.liveAt i k = some j) :
    ∃ t, r.ticket j = some t ∧ t.slot = i ∧ t.cls = k ∧ t.state ≠ .resolved := by
  have := List.find?_some h
  unfold Recs.ticketIs at this
  split at this
  · rename_i t ht
    simp only [Bool.and_eq_true, decide_eq_true_eq] at this
    exact ⟨t, ht, this.1.1, this.1.2, this.2⟩
  · cases this

/-- A changed ticket that keeps its slot and class, and stays RESOLVED if it was, keeps live tickets unique. -/
theorem Recs.changeTicket_unique {r : Recs} (h : r.liveTicketsUnique) (k : Fin 64) (f : Ticket → Ticket)
    (hf : ∀ t, (f t).slot = t.slot ∧ (f t).cls = t.cls ∧ (t.state = .resolved → (f t).state = .resolved)) :
    (r.changeTicket k f).liveTicketsUnique := by
  have key : ∀ (j : Fin 64) (t : Ticket), (r.changeTicket k f).ticket j = some t → t.state ≠ .resolved →
      ∃ u, r.ticket j = some u ∧ u.slot = t.slot ∧ u.cls = t.cls ∧ u.state ≠ .resolved := by
    intro j t ht hs
    cases hk : r.ticket k with
    | none => simp only [Recs.changeTicket, hk] at ht; exact ⟨t, ht, rfl, rfl, hs⟩
    | some u =>
      rw [Recs.changeTicket_some hk] at ht
      change (r.putTicket k (some (f u))).ticket j = some t at ht
      rw [Recs.putTicket_ticket] at ht
      split at ht
      · cases ht
        subst_vars
        exact ⟨u, hk, (hf u).1.symm, (hf u).2.1.symm, fun hr => hs ((hf u).2.2 hr)⟩
      · exact ⟨t, ht, rfl, rfl, hs⟩
  intro j l t u ht hu hst hsu hslot hcls
  obtain ⟨t', ht', h1, h2, h3⟩ := key j t ht hst
  obtain ⟨u', hu', h4, h5, h6⟩ := key l u hu hsu
  exact h j l t' u' ht' hu' h3 h6 (by rw [h1, h4, hslot]) (by rw [h2, h5, hcls])

/-- A ticket put where no live one of its slot and class stands, or a place emptied, keeps live tickets unique. -/
theorem Recs.putTicket_unique {r : Recs} (h : r.liveTicketsUnique) (k : Fin 64) (x : Option Ticket)
    (hx : ∀ t, x = some t → r.liveAt t.slot t.cls = none) : (r.putTicket k x).liveTicketsUnique := by
  intro j l t u ht hu hst hsu hslot hcls
  rw [Recs.putTicket_ticket] at ht hu
  split at ht <;> split at hu
  · subst_vars; rfl
  · exact absurd (Recs.liveAt_none.mp (hx t ht) l u hu hslot.symm hcls.symm) hsu
  · exact absurd (Recs.liveAt_none.mp (hx u hu) j t ht hslot hcls) hst
  · exact h j l t u ht hu hst hsu hslot hcls

/-! ## Chunk indices and members (R144, R151 to R154) -/

/-- What stands in a list into which an index was entered. -/
theorem mem_insertIndex {g x : Nat} {l : List Nat} : x ∈ insertIndex g l ↔ x = g ∨ x ∈ l := by
  induction l with
  | nil => simp [insertIndex]
  | cons y ys ih =>
    unfold insertIndex
    split
    · simp
    · split
      · subst_vars; simp
      · rw [List.mem_cons, ih, List.mem_cons]; exact or_left_comm

/-- A strictly ascending list stays strictly ascending (R144). -/
theorem insertIndex_ascending (g : Nat) {l : List Nat} (h : l.Pairwise (· < ·)) : (insertIndex g l).Pairwise (· < ·) := by
  induction l with
  | nil => simp [insertIndex]
  | cons y ys ih =>
    obtain ⟨hy, hys⟩ := List.pairwise_cons.mp h
    unfold insertIndex
    split
    · rename_i hg
      exact List.pairwise_cons.mpr ⟨fun z hz => (List.mem_cons.mp hz).elim (fun e => e ▸ hg) fun hz => Nat.lt_trans hg (hy z hz), h⟩
    · split
      · exact h
      · refine List.pairwise_cons.mpr ⟨fun z hz => ?_, ih hys⟩
        rcases mem_insertIndex.mp hz with rfl | hz
        · omega
        · exact hy z hz

/-- A gap list with indices merged in is strictly ascending and holds just those of both (R154). -/
theorem mergeGaps_spec {gaps : List Nat} (h : gaps.Pairwise (· < ·)) (indices : List Nat) :
    (mergeGaps gaps indices).Pairwise (· < ·) ∧ ∀ x, x ∈ mergeGaps gaps indices ↔ x ∈ gaps ∨ x ∈ indices := by
  unfold mergeGaps
  induction indices generalizing gaps with
  | nil => exact ⟨h, by simp⟩
  | cons g gs ih =>
    obtain ⟨h1, h2⟩ := ih (insertIndex_ascending g h)
    refine ⟨h1, fun x => (h2 x).trans ?_⟩
    rw [mem_insertIndex, List.mem_cons]
    exact or_assoc.trans or_left_comm

@[simp] theorem Member.owe_owed (k : Owed) (m : Member) : (m.owe k).owed = some k := rfl
@[simp] theorem Member.owe_onLine (k : Owed) (m : Member) : (m.owe k).onLine = false := rfl
@[simp] theorem Member.owe_slot (k : Owed) (m : Member) : (m.owe k).slot = m.slot := rfl
@[simp] theorem Member.owe_state (k : Owed) (m : Member) : (m.owe k).state = m.state := rfl
@[simp] theorem Member.owe_gaps (k : Owed) (m : Member) : (m.owe k).gaps = m.gaps := rfl
@[simp] theorem Member.owe_timer (k : Owed) (m : Member) : (m.owe k).timer = m.timer := rfl

end Sys2Proof.Machine
end

