-- ==== Sys2Proof/Laws/Quiet.lean ====
section
/-!
SUPPORT. What the CLS's, the THU's and the UPE's shared operations leave alone: a quiet change writes no part of an oven
record but what `Oven.settled` drops, nothing of the recipes, the lists of the fleet table, the stop latches and the bus
master, and keeps the dirty count exact and the live tickets unique. Each operation has one lemma.
-/
namespace Sys2Proof.Machine

/-- The change from `a` to `b` is quiet. -/
structure Recs.Quiet (a b : Recs) : Prop where
  ovens      : ∀ i : Fin 24, (b.oven i).map Oven.settled = (a.oven i).map Oven.settled
  recipes    : b.recipes = a.recipes
  discovered : b.discovered = a.discovered
  ignored    : b.ignored = a.ignored
  latches    : b.latches = a.latches
  obm        : b.obm = a.obm
  exact      : a.persist.exact → b.persist.exact
  unique     : a.liveTicketsUnique → b.liveTicketsUnique

theorem Recs.Quiet.refl (a : Recs) : a.Quiet a := ⟨fun _ => rfl, rfl, rfl, rfl, rfl, rfl, id, id⟩

theorem Recs.Quiet.trans {a b c : Recs} (h : a.Quiet b) (k : b.Quiet c) : a.Quiet c :=
  ⟨fun i => (k.ovens i).trans (h.ovens i), k.recipes.trans h.recipes, k.discovered.trans h.discovered,
   k.ignored.trans h.ignored, k.latches.trans h.latches, k.obm.trans h.obm, fun e => k.exact (h.exact e),
   fun e => k.unique (h.unique e)⟩

/-- A fold of quiet changes is quiet. -/
theorem Recs.Quiet.foldl {α : Type} {f : Recs → α → Recs} (hf : ∀ r x, Recs.Quiet r (f r x)) (l : List α) (r : Recs) :
    r.Quiet (l.foldl f r) := by
  induction l generalizing r with
  | nil => exact .refl r
  | cons x xs ih => exact (hf r x).trans (ih _)

theorem Recs.Quiet.ite {c : Prop} [Decidable c] {r a b : Recs} (ha : r.Quiet a) (hb : r.Quiet b) : r.Quiet (if c then a else b) := by
  split
  · exact ha
  · exact hb

/-! ## Single writes -/

theorem Recs.mark_quiet (r : Recs) (ix : Index) : r.Quiet (r.mark ix) :=
  ⟨fun _ => rfl, rfl, rfl, rfl, rfl, rfl, fun h => Persist.mark_exact h ix, id⟩

theorem Recs.latch_quiet (r : Recs) (c : Cause) : r.Quiet (r.latch c) := ⟨fun _ => rfl, rfl, rfl, rfl, rfl, rfl, id, id⟩

theorem Recs.latchRoute_quiet (r : Recs) (t : Route) : r.Quiet (r.latchRoute t) := by
  cases t
  · exact r.latch_quiet _
  · exact r.latch_quiet _
  · exact (r.latch_quiet _).trans (Recs.latch_quiet _ _)

theorem Recs.putOven_quiet {r : Recs} {i : Fin 24} {o n : Oven} (h : r.oven i = some o) (hn : n.settled = o.settled) :
    r.Quiet (r.putOven i (some n)) := by
  refine ⟨fun j => ?_, rfl, rfl, rfl, rfl, rfl, id, id⟩
  rw [Recs.putOven_oven]
  split
  · subst_vars; rw [h]; simp [hn]
  · rfl

theorem Recs.modOven_quiet {r : Recs} {i : Fin 24} {f : Oven → Oven} (hf : ∀ o, (f o).settled = o.settled) :
    r.Quiet (r.modOven i f) := by
  cases h : r.oven i with
  | none => rw [Recs.modOven_none h]; exact .refl r
  | some o => rw [Recs.modOven_some h]; exact Recs.putOven_quiet h (hf o)

theorem Recs.changeOven_quiet {r : Recs} {i : Fin 24} {f : Oven → Oven} (hf : ∀ o, (f o).settled = o.settled) :
    r.Quiet (r.changeOven i f) := by
  cases h : r.oven i with
  | none => rw [Recs.changeOven_none h]; exact .refl r
  | some o => rw [Recs.changeOven_some h]; exact (Recs.putOven_quiet h (hf o)).trans (Recs.mark_quiet _ _)

theorem Recs.changeObl_quiet (r : Recs) (i : Fin 24) (f : Obligation → Obligation) : r.Quiet (r.changeObl i f) := by
  unfold Recs.changeObl
  split
  · exact Recs.changeOven_quiet fun _ => rfl
  · exact .refl r

theorem Recs.changeTicket_quiet {r : Recs} (k : Fin 64) {f : Ticket → Ticket}
    (hf : ∀ t, (f t).slot = t.slot ∧ (f t).cls = t.cls ∧ (t.state = .resolved → (f t).state = .resolved)) :
    r.Quiet (r.changeTicket k f) := by
  refine ⟨fun i => ?_, ?_, ?_, ?_, ?_, ?_, ?_, fun h => Recs.changeTicket_unique h k f hf⟩ <;> unfold Recs.changeTicket <;> split <;>
    first | rfl | exact id | exact fun h => Persist.mark_exact h _

theorem Recs.putTicket_quiet {r : Recs} (k : Fin 64) {x : Option Ticket} (hx : ∀ t, x = some t → r.liveAt t.slot t.cls = none) :
    r.Quiet (r.putTicket k x) :=
  ⟨fun _ => rfl, rfl, rfl, rfl, rfl, rfl, id, fun h => Recs.putTicket_unique h k x hx⟩

theorem Recs.campaign_quiet (r : Recs) (c : Option Campaign) : r.Quiet { r with campaign := c } :=
  ⟨fun _ => rfl, rfl, rfl, rfl, rfl, rfl, id, id⟩

theorem Recs.modCampaign_quiet (r : Recs) (f : Campaign → Campaign) : r.Quiet (r.modCampaign f) := r.campaign_quiet _

theorem Recs.changeCampaign_quiet (r : Recs) (f : Campaign → Campaign) : r.Quiet (r.changeCampaign f) := by
  unfold Recs.changeCampaign
  split
  · exact (r.campaign_quiet _).trans (Recs.mark_quiet _ _)
  · exact .refl r

theorem Recs.modMember_quiet (r : Recs) (i : Fin 24) (f : Member → Member) : r.Quiet (r.modMember i f) := r.modCampaign_quiet _

theorem Recs.changeMember_quiet (r : Recs) (i : Fin 24) (f : Member → Member) : r.Quiet (r.changeMember i f) :=
  r.changeCampaign_quiet _

/-! ## Tickets (R127 to R131) -/

theorem Recs.mergeReport_quiet (e : Env) (j : Fin 64) (t : Ticket) (code : BitVec 16) (sev : Severity) (r : Recs) :
    r.Quiet (r.mergeReport e j t code sev) := by
  unfold Recs.mergeReport
  have h1 := Recs.changeTicket_quiet (r := r) j (f := fun u =>
    { u with occurrences := min 255 (u.occurrences + 1), lastAt := e.minute, code := code, cleared := false,
             repeated := u.repeated || decide (u.state = .opened),
             severity := if decide (t.severity.code < sev.code) = true then sev else u.severity }) fun _ => ⟨rfl, rfl, id⟩
  have h2 := h1.trans (Recs.Quiet.ite (c := t.state = .opened) (Recs.latch_quiet _ .ticketRepeat) (.refl _))
  exact h2.trans (Recs.Quiet.ite (Recs.latchRoute_quiet _ _) (.refl _))

theorem Recs.openTicket_quiet {e : Env} {j : Fin 64} {i : Fin 24} {k : Fin 32} {code : BitVec 16} {sev : Severity} {org : Origin}
    {r : Recs} (h : r.liveAt i k = none) : r.Quiet (r.openTicket e j i k code sev org) := by
  unfold Recs.openTicket
  have h1 : r.Quiet { r with nextTicket := numberAfter (r.freeNumber 65 r.nextTicket) } :=
    ⟨fun _ => rfl, rfl, rfl, rfl, rfl, rfl, id, id⟩
  refine ((h1.trans (Recs.putTicket_quiet j ?_)).trans (Recs.mark_quiet _ _)).trans (Recs.latchRoute_quiet _ _)
  intro t ht
  cases ht
  exact h

theorem Recs.untrack_quiet (i : Fin 24) (sev : Severity) (r : Recs) : r.Quiet (r.untrack i sev) :=
  (Recs.changeOven_quiet (r := r) (i := i) (f := fun o => { o with untracked := worse o.untracked sev }) fun _ => rfl).trans
    (Recs.latch_quiet _ _)

theorem Recs.report_quiet (e : Env) (i : Fin 24) (k : Fin 32) (code : BitVec 16) (sev : Severity) (org : Origin) (r : Recs) :
    r.Quiet (r.report e i k code sev org) := by
  unfold Recs.report
  split
  · exact .refl r
  · split
    · exact Recs.mergeReport_quiet ..
    · rename_i hl
      have hn : r.liveAt i k = none := by
        cases h : r.liveAt i k with
        | none => rfl
        | some j =>
          obtain ⟨t, ht, -⟩ := Recs.liveAt_some h
          simp [h, ht] at hl
      split
      · exact Recs.openTicket_quiet hn
      · split
        · rename_i j _
          refine ((Recs.putTicket_quiet (r := r) j (x := none) fun _ h => by cases h).trans (Recs.mark_quiet _ _)).trans
            (Recs.openTicket_quiet ?_)
          rw [Recs.liveAt_none]
          intro l t ht hs hc
          change (r.putTicket j none).ticket l = some t at ht
          rw [Recs.putTicket_ticket] at ht
          split at ht
          · cases ht
          · exact Recs.liveAt_none.mp hn l t ht hs hc
        · exact Recs.untrack_quiet ..

theorem Recs.raise_quiet (e : Env) (i : Fin 24) (k : Fin 32) (sev : Severity) (r : Recs) : r.Quiet (r.raise e i k sev) :=
  Recs.report_quiet ..

theorem Recs.resolveAt_quiet (e : Env) (j : Fin 64) (r : Recs) : r.Quiet (r.resolveAt e j) :=
  Recs.changeTicket_quiet j fun _ => ⟨rfl, rfl, fun _ => rfl⟩

theorem Recs.resolvePart_quiet (e : Env) (i : Fin 24) (k : Fin 32) (r : Recs) : r.Quiet (r.resolvePart e i k) := by
  unfold Recs.resolvePart
  split
  · exact Recs.resolveAt_quiet ..
  · exact .refl r

theorem Recs.faultClear_quiet (e : Env) (i : Fin 24) (k : Fin 32) (r : Recs) : r.Quiet (r.faultClear e i k) := by
  unfold Recs.faultClear
  split
  · exact .refl r
  · rename_i j _
    have h : r.Quiet (r.changeTicket j fun t => { t with cleared := true }) :=
      Recs.changeTicket_quiet j fun _ => ⟨rfl, rfl, id⟩
    exact Recs.Quiet.ite h (h.trans (Recs.resolveAt_quiet ..))

/-! ## Obligations and grants (R108 to R116) -/

theorem Recs.issueGrant_quiet (e : Env) (i : Fin 24) (r : Recs) : r.Quiet (r.issueGrant e i) := by
  unfold Recs.issueGrant
  split
  · exact .refl r
  · rename_i b _
    have h := Recs.changeOven_quiet (r := r) (i := i) (f := fun o =>
      { o with obligation := some { b with state := .granted
                                           grant := some { level := b.level, issuedAt := e.minute, sequence := r.sequence } }
               grantTelegram := .owed }) fun _ => rfl
    exact ⟨h.ovens, h.recipes, h.discovered, h.ignored, h.latches, h.obm, h.exact, h.unique⟩

theorem Recs.arbiter_quiet (e : Env) (r : Recs) : r.Quiet (r.arbiter e) := by
  unfold Recs.arbiter
  refine Recs.Quiet.ite (Recs.Quiet.foldl (fun r i => ?_) _ _) (.refl r)
  unfold Recs.offer
  exact Recs.Quiet.ite (.refl r) (Recs.Quiet.ite (Recs.issueGrant_quiet ..) (.refl r))

theorem Recs.overdueTest_quiet (e : Env) (i : Fin 24) (r : Recs) : r.Quiet (r.overdueTest e i) := by
  unfold Recs.overdueTest
  exact Recs.Quiet.ite (((Recs.changeObl_quiet ..).trans (Recs.latch_quiet ..)).trans (Recs.raise_quiet ..)) (.refl r)

theorem Recs.lockTest_quiet (e : Env) (i : Fin 24) (r : Recs) : r.Quiet (r.lockTest e i) := by
  unfold Recs.lockTest
  split
  · exact .refl r
  · refine Recs.Quiet.ite (Recs.Quiet.trans ?_ (Recs.raise_quiet ..)) (.refl r)
    exact Recs.Quiet.trans (Recs.changeObl_quiet ..) (Recs.modOven_quiet fun _ => rfl)

theorem Recs.dueTests_quiet (e : Env) (i : Fin 24) (r : Recs) : r.Quiet (r.dueTests e i) := by
  unfold Recs.dueTests
  exact Recs.Quiet.ite ((Recs.overdueTest_quiet ..).trans (Recs.lockTest_quiet ..)) (.refl r)

theorem Recs.endGrant_quiet (e : Env) (i : Fin 24) (r : Recs) : r.Quiet (r.endGrant e i) := by
  unfold Recs.endGrant
  refine Recs.Quiet.ite (Recs.Quiet.trans ?_ (Recs.dueTests_quiet ..)) (.refl r)
  exact Recs.Quiet.trans (Recs.changeObl_quiet ..) (Recs.modOven_quiet fun _ => rfl)

theorem Recs.revoke_quiet (e : Env) (i : Fin 24) (r : Recs) : r.Quiet (r.revoke e i) := by
  unfold Recs.revoke
  exact Recs.Quiet.ite ((Recs.endGrant_quiet ..).trans (Recs.arbiter_quiet ..)) (.refl r)

theorem Recs.clsExpiry_quiet (e : Env) (r : Recs) : r.Quiet (r.clsExpiry e) := by
  unfold Recs.clsExpiry
  refine Recs.Quiet.ite ((Recs.Quiet.foldl (fun r i => ?_) _ _).trans (Recs.arbiter_quiet ..)) (.refl r)
  unfold Recs.expireObl
  exact (Recs.Quiet.ite (Recs.endGrant_quiet ..) (.refl r)).trans (Recs.dueTests_quiet ..)

theorem Recs.trimGrants_quiet (e : Env) (fuel : Nat) (r : Recs) : r.Quiet (r.trimGrants e fuel) := by
  induction fuel generalizing r with
  | zero => exact .refl r
  | succ n ih =>
    unfold Recs.trimGrants
    refine Recs.Quiet.ite ?_ (.refl r)
    split
    · exact (Recs.endGrant_quiet ..).trans (ih _)
    · exact .refl r

theorem Recs.limitCheck_quiet (e : Env) (r : Recs) : r.Quiet (r.limitCheck e) := by
  unfold Recs.limitCheck
  exact Recs.Quiet.ite ((Recs.trimGrants_quiet ..).trans (Recs.arbiter_quiet ..)) (.refl r)

theorem Recs.demand_quiet (e : Env) (i : Fin 24) (level : Level) (r : Recs) : r.Quiet (r.demand e i level) := by
  unfold Recs.demand
  split
  · exact .refl r
  · split
    · refine Recs.Quiet.trans (Recs.Quiet.trans ?_ (Recs.latch_quiet ..)) (Recs.arbiter_quiet ..)
      exact Recs.changeOven_quiet fun _ => rfl
    · exact Recs.Quiet.ite (((Recs.changeObl_quiet ..).trans (Recs.latch_quiet ..)).trans (Recs.arbiter_quiet ..)) (.refl r)

theorem Recs.evaluateInService_quiet (e : Env) (i : Fin 24) (r : Recs) : r.Quiet (r.evaluateInService e i) := by
  unfold Recs.evaluateInService Recs.evaluate
  refine Recs.Quiet.ite ?_ (.refl r)
  split
  · exact Recs.demand_quiet ..
  · exact .refl r

theorem Recs.removeObl_quiet (i : Fin 24) (r : Recs) : r.Quiet (r.removeObl i) := by
  unfold Recs.removeObl
  split
  · exact .refl r
  · exact Recs.changeOven_quiet fun _ => rfl

/-! ## Campaigns (R149, R158, R163) -/

theorem Recs.finishTest_quiet (r : Recs) : r.Quiet r.finishTest := by
  unfold Recs.finishTest Recs.setCampaignState
  split
  · exact .refl r
  · exact Recs.Quiet.ite ((Recs.changeCampaign_quiet ..).trans (Recs.latch_quiet ..))
      (Recs.Quiet.ite ((Recs.changeCampaign_quiet ..).trans (Recs.latch_quiet ..)) (.refl r))

theorem Recs.admissionCore_quiet (r : Recs) : r.Quiet r.admissionCore := by
  unfold Recs.admissionCore
  split
  · exact .refl r
  · refine Recs.Quiet.ite ?_ (.refl r)
    exact (((r.campaign_quiet _).trans (Recs.Quiet.ite (Recs.mark_quiet ..) (.refl _))).trans
      (Recs.Quiet.ite (Recs.latch_quiet ..) (.refl _))).trans (Recs.finishTest_quiet _)

theorem Recs.admission_quiet (e : Env) (r : Recs) : r.Quiet (r.admission e) := by
  unfold Recs.admission
  exact Recs.Quiet.ite (Recs.admissionCore_quiet r) (.refl r)

theorem Recs.activate_quiet (e : Env) (i : Fin 24) (r : Recs) : r.Quiet (r.activate e i) := by
  unfold Recs.activate
  refine Recs.Quiet.trans ?_ (Recs.revoke_quiet ..)
  exact Recs.Quiet.trans (Recs.changeMember_quiet ..) (Recs.modOven_quiet fun _ => rfl)

theorem Recs.activateAmong_quiet (e : Env) (l : List (Fin 24)) (r : Recs) : r.Quiet (r.activateAmong e l) := by
  unfold Recs.activateAmong
  refine Recs.Quiet.ite ?_ (.refl r)
  have h : r.Quiet (l.foldl (Recs.activateIf e) r) := by
    refine Recs.Quiet.foldl (fun r i => ?_) _ _
    unfold Recs.activateIf
    exact Recs.Quiet.ite (Recs.activate_quiet ..) (.refl r)
  exact h.trans (Recs.Quiet.ite (Recs.admission_quiet ..) (.refl _))

theorem Recs.activationCheck_quiet (e : Env) (r : Recs) : r.Quiet (r.activationCheck e) := Recs.activateAmong_quiet ..

theorem Recs.activationCheckIn_quiet (e : Env) (z : Fin 4) (r : Recs) : r.Quiet (r.activationCheckIn e z) :=
  Recs.activateAmong_quiet ..

theorem Recs.upeCheck_quiet (e : Env) (r : Recs) : r.Quiet (r.upeCheck e) :=
  (Recs.admission_quiet ..).trans (Recs.activationCheck_quiet ..)

theorem Recs.endActivating_quiet (i : Fin 24) (f : Member → Member) (r : Recs) : r.Quiet (r.endActivating i f) :=
  (Recs.changeMember_quiet ..).trans (Recs.modOven_quiet fun _ => rfl)

theorem Recs.backToReady_quiet (e : Env) (i : Fin 24) (r : Recs) : r.Quiet (r.backToReady e i) := by
  unfold Recs.backToReady Recs.leaveActivating
  exact Recs.Quiet.ite ((((Recs.endActivating_quiet ..).trans (Recs.arbiter_quiet ..)).trans (Recs.finishTest_quiet _)).trans
    (Recs.activationCheck_quiet ..)) (.refl r)

/-- A record is there after a quiet change just when it was before, and what is not dropped by `Oven.settled` is the same. -/
theorem Recs.Quiet.oven {a b : Recs} (h : a.Quiet b) {i : Fin 24} {o : Oven} (ho : a.oven i = some o) :
    ∃ n, b.oven i = some n ∧ n.settled = o.settled := by
  have := h.ovens i
  rw [ho] at this
  cases hb : b.oven i with
  | none => rw [hb] at this; cases this
  | some n => rw [hb] at this; exact ⟨n, rfl, by simpa using this⟩

theorem Recs.Quiet.free {a b : Recs} (h : a.Quiet b) {i : Fin 24} (ho : a.oven i = none) : b.oven i = none := by
  have := h.ovens i
  rw [ho] at this
  cases hb : b.oven i with
  | none => rfl
  | some n => rw [hb] at this; cases this

end Sys2Proof.Machine
end

