-- ==== Sys2Proof/Laws/Keeps.lean ====
section
/-!
SUPPORT. What the operations of the FLT, the RLB, the RDE and the OBM keep: the stop latches as they are, an exact dirty
count exact (R179) and unique live tickets unique (R125). Each operation has one lemma.
-/
namespace Sys2Proof.Machine

/-- The change from `a` to `b` keeps the latches, the exact dirty count and the unique live tickets. -/
structure Recs.Keeps (a b : Recs) : Prop where
  latches : b.latches = a.latches
  exact   : a.persist.exact → b.persist.exact
  unique  : a.liveTicketsUnique → b.liveTicketsUnique

theorem Recs.Keeps.refl (a : Recs) : a.Keeps a := ⟨rfl, id, id⟩

theorem Recs.Keeps.trans {a b c : Recs} (h : a.Keeps b) (k : b.Keeps c) : a.Keeps c :=
  ⟨k.latches.trans h.latches, fun e => k.exact (h.exact e), fun e => k.unique (h.unique e)⟩

theorem Recs.Quiet.keeps {a b : Recs} (h : a.Quiet b) : a.Keeps b := ⟨h.latches, h.exact, h.unique⟩

theorem Recs.Keeps.foldl {α : Type} {f : Recs → α → Recs} (hf : ∀ r x, Recs.Keeps r (f r x)) (l : List α) (r : Recs) :
    r.Keeps (l.foldl f r) := by
  induction l generalizing r with
  | nil => exact .refl r
  | cons x xs ih => exact (hf r x).trans (ih _)

theorem Recs.Keeps.ite {c : Prop} [Decidable c] {r a b : Recs} (ha : r.Keeps a) (hb : r.Keeps b) : r.Keeps (if c then a else b) := by
  split
  · exact ha
  · exact hb

/-! ## Single writes -/

theorem Recs.putOven_keeps (r : Recs) (i : Fin 24) (o : Option Oven) : r.Keeps (r.putOven i o) := ⟨rfl, id, id⟩

theorem Recs.mark_keeps (r : Recs) (ix : Index) : r.Keeps (r.mark ix) := (r.mark_quiet ix).keeps

theorem Recs.latch_keeps (r : Recs) (c : Cause) : r.Keeps (r.latch c) := ⟨rfl, id, id⟩

theorem Recs.modObm_keeps (r : Recs) (f : Obm → Obm) : r.Keeps (r.modObm f) := ⟨rfl, id, id⟩

theorem Recs.putRecipe_keeps (r : Recs) (k : Fin 128) (x : Option Recipe) : r.Keeps (r.putRecipe k x) := ⟨rfl, id, id⟩

theorem Recs.modCampaign_keeps (r : Recs) (f : Campaign → Campaign) : r.Keeps (r.modCampaign f) := ⟨rfl, id, id⟩

theorem Recs.modMember_keeps (r : Recs) (i : Fin 24) (f : Member → Member) : r.Keeps (r.modMember i f) := ⟨rfl, id, id⟩

theorem Recs.changeCampaign_keeps (r : Recs) (f : Campaign → Campaign) : r.Keeps (r.changeCampaign f) :=
  (r.changeCampaign_quiet f).keeps

theorem Recs.changeMember_keeps (r : Recs) (i : Fin 24) (f : Member → Member) : r.Keeps (r.changeMember i f) :=
  (r.changeMember_quiet i f).keeps

theorem Recs.modOven_keeps (r : Recs) (i : Fin 24) (f : Oven → Oven) : r.Keeps (r.modOven i f) := by
  unfold Recs.modOven
  split
  · exact Recs.putOven_keeps ..
  · exact .refl r

theorem Recs.changeOven_keeps (r : Recs) (i : Fin 24) (f : Oven → Oven) : r.Keeps (r.changeOven i f) := by
  unfold Recs.changeOven
  split
  · exact (Recs.putOven_keeps ..).trans (Recs.mark_keeps ..)
  · exact .refl r

theorem Recs.changeRecipe_keeps (r : Recs) (k : Fin 128) (f : Recipe → Recipe) : r.Keeps (r.changeRecipe k f) := by
  unfold Recs.changeRecipe
  split
  · exact (Recs.putRecipe_keeps ..).trans (Recs.mark_keeps ..)
  · exact .refl r

theorem Recs.moveTo_keeps (i : Fin 24) (l : Lifecycle) (x : Option CommStep) (r : Recs) : r.Keeps (r.moveTo i l x) :=
  Recs.changeOven_keeps ..

theorem Recs.setStep_keeps (i : Fin 24) (x : Option CommStep) (r : Recs) : r.Keeps (r.setStep i x) := Recs.modOven_keeps ..

theorem Recs.dropTicket_keeps (j : Fin 64) (r : Recs) : r.Keeps (r.dropTicket j) := by
  unfold Recs.dropTicket
  split
  · exact ((Recs.putTicket_quiet j fun _ h => by cases h).trans (Recs.mark_quiet ..)).keeps
  · exact .refl r

theorem Recs.dropTickets_keeps (p : Ticket → Bool) (r : Recs) : r.Keeps (r.dropTickets p) :=
  Recs.Keeps.foldl (fun r j => Recs.Keeps.ite (Recs.dropTicket_keeps j r) (.refl r)) _ _

/-! ## The library and the carried lists (R66 to R89) -/

theorem Recs.dropRecipe_keeps (r : Recs) (k : Fin 128) : r.Keeps (r.dropRecipe k) :=
  (Recs.putRecipe_keeps ..).trans (Recs.mark_keeps ..)

theorem Recs.releaseAt_keeps (r : Recs) (k : Fin 128) : r.Keeps (r.releaseAt k) := by
  unfold Recs.releaseAt
  exact Recs.Keeps.ite ((Recs.dropRecipe_keeps ..).trans (Recs.latch_keeps ..)) (.refl r)

theorem Recs.releaseTest_keeps (e : Env) (id version : Nat) (r : Recs) : r.Keeps (r.releaseTest e id version) := by
  unfold Recs.releaseTest
  refine Recs.Keeps.ite ?_ (.refl r)
  split
  · exact Recs.releaseAt_keeps ..
  · exact .refl r

theorem Recs.releaseTests_keeps (e : Env) (pairs : List (Nat × Nat)) (r : Recs) : r.Keeps (r.releaseTests e pairs) :=
  Recs.Keeps.foldl (fun r (p : Nat × Nat) => Recs.releaseTest_keeps e p.1 p.2 r) _ _

theorem Recs.recompute_keeps (i : Fin 24) (r : Recs) : r.Keeps (r.recompute i) := by
  unfold Recs.recompute
  split
  · exact .refl r
  · exact Recs.Keeps.ite ((Recs.putOven_keeps ..).trans (Recs.latch_keeps ..)) (Recs.putOven_keeps ..)

theorem Recs.emptyCarried_keeps (e : Env) (i : Fin 24) (r : Recs) : r.Keeps (r.emptyCarried e i) := by
  unfold Recs.emptyCarried
  split
  · exact .refl r
  · exact Recs.Keeps.trans (Recs.Keeps.ite (Recs.putOven_keeps ..) ((Recs.putOven_keeps ..).trans (Recs.mark_keeps ..)))
      (Recs.releaseTests_keeps ..)

theorem Recs.shrinkCheck_keeps (e : Env) (i : Fin 24) (r : Recs) : r.Keeps (r.shrinkCheck e i) := by
  unfold Recs.shrinkCheck
  split
  · exact .refl r
  · split
    · exact Recs.Keeps.ite ((Recs.emptyCarried_keeps ..).trans (Recs.modOven_keeps ..)) (.refl r)
    · exact .refl r

theorem Recs.storeAfresh_keeps (e : Env) (i : Fin 24) (clear : Bool) (r : Recs) : r.Keeps (r.storeAfresh e i clear) :=
  (Recs.emptyCarried_keeps ..).trans (Recs.modOven_keeps ..)

theorem Recs.clearDelivered_keeps (e : Env) (i : Fin 24) (r : Recs) : r.Keeps (r.clearDelivered e i) :=
  (Recs.emptyCarried_keeps ..).trans (Recs.modOven_keeps ..)

theorem Recs.setHeld_keeps (e : Env) (i : Fin 24) (id v : Nat) (clamped : Option Bool) (r : Recs) :
    r.Keeps (r.setHeld e i id v clamped) := by
  unfold Recs.setHeld
  split
  · exact .refl r
  · dsimp only
    split
    · exact Recs.Keeps.ite (Recs.changeOven_keeps ..) ((Recs.changeOven_keeps ..).trans (Recs.releaseTest_keeps ..))
    · exact Recs.changeOven_keeps ..

theorem Recs.removeEntry_keeps (e : Env) (i : Fin 24) (id : Nat) (r : Recs) : r.Keeps (r.removeEntry e i id) := by
  unfold Recs.removeEntry
  split
  · exact .refl r
  · dsimp only
    split
    · exact (Recs.changeOven_keeps ..).trans (Recs.releaseTest_keeps ..)
    · exact Recs.changeOven_keeps ..

theorem Recs.recipeAck_keeps (e : Env) (i : Fin 24) (id v : Nat) (ok : Bool) (r : Recs) : r.Keeps (r.recipeAck e i id v ok) := by
  unfold Recs.recipeAck
  split
  · exact .refl r
  · refine Recs.Keeps.ite ?_ (Recs.Keeps.ite ?_ ?_)
    · exact Recs.Keeps.ite ((Recs.modOven_keeps ..).trans (Recs.removeEntry_keeps ..))
        (Recs.Keeps.ite (Recs.removeEntry_keeps ..) (.refl r))
    · exact Recs.Keeps.ite ((Recs.modOven_keeps ..).trans (Recs.setHeld_keeps ..))
        (Recs.Keeps.ite (Recs.Keeps.ite (.refl r) (Recs.setHeld_keeps ..)) (.refl r))
    · exact ((Recs.Keeps.ite ((Recs.modOven_keeps ..).trans (Recs.modOven_keeps ..)) (Recs.modOven_keeps ..)).trans
        (Recs.recompute_keeps ..)).trans (Recs.latch_keeps ..)

theorem Recs.compareDigest_keeps (i : Fin 24) (x : BitVec 32) (r : Recs) : r.Keeps (r.compareDigest i x) := by
  unfold Recs.compareDigest
  split
  · exact .refl r
  · exact Recs.Keeps.ite (.refl r) (Recs.Keeps.ite (Recs.putOven_keeps ..) ((Recs.putOven_keeps ..).trans (Recs.latch_keeps ..)))

/-! ## Cook contexts and lifecycles (R8 to R18) -/

theorem Recs.closeCook_keeps (e : Env) (i : Fin 24) (r : Recs) : r.Keeps (r.closeCook e i) := by
  unfold Recs.closeCook
  split
  · exact .refl r
  · dsimp only
    split
    · exact (Recs.modOven_keeps ..).trans (Recs.releaseTest_keeps ..)
    · exact Recs.modOven_keeps ..

theorem Recs.openCook_keeps (e : Env) (i : Fin 24) (recipe : Nat) (v : Option Nat) (counted : Bool) (r : Recs) :
    r.Keeps (r.openCook e i recipe v counted) := Recs.modOven_keeps ..

theorem Recs.enteredService_keeps (e : Env) (i : Fin 24) (r : Recs) : r.Keeps (r.enteredService e i) :=
  (((Recs.resolvePart_quiet ..).trans (Recs.evaluateInService_quiet ..)).trans (Recs.arbiter_quiet ..)).keeps

theorem Recs.loadingTest_keeps (e : Env) (i : Fin 24) (r : Recs) : r.Keeps (r.loadingTest e i) := by
  unfold Recs.loadingTest
  exact Recs.Keeps.ite (((Recs.changeOven_keeps ..).trans (Recs.latch_keeps ..)).trans (Recs.enteredService_keeps ..)) (.refl r)

theorem Recs.retarget_keeps (e : Env) (i : Fin 24) (r : Recs) : r.Keeps (r.retarget e i) :=
  (Recs.recompute_keeps ..).trans (Recs.loadingTest_keeps ..)

theorem Recs.retargetAll_keeps (e : Env) (r : Recs) : r.Keeps (r.retargetAll e) :=
  Recs.Keeps.foldl (fun _ _ => Recs.Keeps.ite (Recs.retarget_keeps ..) (.refl _)) _ _

/-! ## Waves (R150 to R157) -/

theorem Recs.oweAbort_keeps (i : Fin 24) (r : Recs) : r.Keeps (r.oweAbort i) := by
  unfold Recs.oweAbort
  split
  · exact Recs.modOven_keeps ..
  · exact .refl r

theorem Recs.waveEnd_keeps (e : Env) (r : Recs) : r.Keeps (r.waveEnd e) := by
  unfold Recs.waveEnd
  split
  · exact .refl r
  · exact Recs.Keeps.ite ((r.campaign_quiet _).trans (Recs.admission_quiet ..)).keeps (.refl r)

theorem Recs.waveFailure_keeps (e : Env) (i : Fin 24) (why : FailReason) (r : Recs) : r.Keeps (r.waveFailure e i why) := by
  unfold Recs.waveFailure
  split
  · exact .refl r
  · refine Recs.Keeps.trans (Recs.Keeps.trans (Recs.Keeps.trans (Recs.Keeps.ite ?_ ?_) (Recs.mark_keeps ..)) (Recs.waveEnd_keeps ..))
      (Recs.finishTest_quiet _).keeps
    · exact (((Recs.modMember_keeps ..).trans (Recs.oweAbort_keeps ..)).trans (Recs.latch_keeps ..)).trans
        (Recs.raise_quiet ..).keeps
    · exact (Recs.modMember_keeps ..).trans (Recs.oweAbort_keeps ..)

theorem Recs.leaveWave_keeps (e : Env) (i : Fin 24) (why : DeferReason) (r : Recs) : r.Keeps (r.leaveWave e i why) := by
  unfold Recs.leaveWave
  split
  · exact .refl r
  · exact Recs.Keeps.ite ((((Recs.changeMember_keeps ..).trans (Recs.oweAbort_keeps ..)).trans (Recs.waveEnd_keeps ..)).trans
      (Recs.finishTest_quiet _).keeps) (.refl r)

theorem Recs.leftService_keeps (e : Env) (i : Fin 24) (r : Recs) : r.Keeps (r.leftService e i) :=
  (Recs.revoke_quiet ..).keeps.trans (Recs.leaveWave_keeps ..)

theorem Recs.rejoin_keeps (e : Env) (i : Fin 24) (x : CommStep) (r : Recs) : r.Keeps (r.rejoin e i x) := by
  unfold Recs.rejoin
  exact Recs.Keeps.ite (Recs.setStep_keeps ..)
    (Recs.Keeps.ite ((Recs.moveTo_keeps ..).trans (Recs.leftService_keeps ..)) (Recs.moveTo_keeps ..))

theorem Recs.removeMember_keeps (i : Fin 24) (r : Recs) : r.Keeps (r.removeMember i) := by
  unfold Recs.removeMember
  split
  · exact Recs.changeCampaign_keeps ..
  · exact .refl r

theorem Recs.afterRemoval_keeps (e : Env) (z : Fin 4) (r : Recs) : r.Keeps (r.afterRemoval e z) :=
  ((Recs.waveEnd_keeps ..).trans (Recs.activationCheckIn_quiet ..).keeps).trans (Recs.finishTest_quiet _).keeps

/-! ## Retirement (R21, R22) -/

theorem Recs.freeSlot_keeps (i : Fin 24) (r : Recs) : r.Keeps (r.freeSlot i) :=
  ((Recs.putOven_keeps ..).trans (Recs.mark_keeps ..)).trans (Recs.modObm_keeps ..)

theorem Recs.vacateSlot_keeps (e : Env) (i : Fin 24) (r : Recs) : r.Keeps (r.vacateSlot e i) := by
  have h : r.Keeps (((r.closeCook e i).emptyCarried e i).freeSlot i) :=
    ((Recs.closeCook_keeps ..).trans (Recs.emptyCarried_keeps ..)).trans (Recs.freeSlot_keeps ..)
  unfold Recs.vacateSlot
  exact Recs.Keeps.ite (h.trans (Recs.arbiter_quiet ..).keeps) h

theorem Recs.retireProceed_keeps (e : Env) (i : Fin 24) (r : Recs) : r.Keeps (r.retireProceed e i) := by
  unfold Recs.retireProceed
  split
  · exact .refl r
  · rename_i o _
    have h2 : r.Keeps (match o.obligation with
        | some _ => ((r.closeCook e i).endGrant e i).changeOven i fun o => { o with obligation := none }
        | none => (r.closeCook e i).endGrant e i) := by
      have h1 : r.Keeps ((r.closeCook e i).endGrant e i) := (Recs.closeCook_keeps ..).trans (Recs.endGrant_quiet ..).keeps
      split
      · exact h1.trans (Recs.changeOven_keeps ..)
      · exact h1
    have h5 := ((((h2.trans (Recs.modOven_keeps _ i fun o =>
        { o with grantTelegram := .none, revokeOwed := false, overdueLock := false })).trans (Recs.removeMember_keeps i _)).trans
        (Recs.modOven_keeps _ i fun o => { o with abortOwed := none })).trans
        (Recs.dropTickets_keeps (fun t => decide (t.slot = i)) _)).trans (Recs.storeAfresh_keeps e i false _)
    have h7 := (h5.trans (Recs.Keeps.ite (c := o.releaseSkipped = true) (Recs.freeSlot_keeps i _)
      (Recs.changeOven_keeps _ i fun o => { o with lifecycle := .retiring, step := some .release, releaseDue := false }))).trans
      (Recs.afterRemoval_keeps e o.zone _)
    exact Recs.Keeps.ite (h7.trans (Recs.arbiter_quiet e _).keeps) h7

theorem Recs.retireIfIdle_keeps (e : Env) (i : Fin 24) (r : Recs) : r.Keeps (r.retireIfIdle e i) := by
  unfold Recs.retireIfIdle
  exact Recs.Keeps.ite (Recs.retireProceed_keeps ..) (.refl r)

/-! ## Cleanings and activity (R16 to R18, R117 to R120) -/

theorem Recs.cleanStart_keeps (e : Env) (i : Fin 24) (r : Recs) : r.Keeps (r.cleanStart e i) := by
  unfold Recs.cleanStart
  have h1 := Recs.modOven_keeps r i fun o => { o with activity := .cleaning }
  refine Recs.Keeps.ite ?_ ?_
  · exact (((h1.trans (Recs.Keeps.ite ((Recs.changeObl_quiet ..).keeps.trans (Recs.modOven_keeps ..)) (.refl _))).trans
      (Recs.arbiter_quiet ..).keeps)).trans (Recs.limitCheck_quiet ..).keeps
  · exact (h1.trans (Recs.Keeps.ite ((Recs.changeObl_quiet ..).keeps.trans (Recs.modOven_keeps ..)) (.refl _))).trans
      (Recs.arbiter_quiet ..).keeps

theorem Recs.cleanLost_keeps (e : Env) (i : Fin 24) (r : Recs) : r.Keeps (r.cleanLost e i) :=
  ((Recs.Quiet.ite ((Recs.changeObl_quiet ..).trans (Recs.dueTests_quiet ..)) (.refl r)).trans (Recs.arbiter_quiet ..)).keeps

theorem Recs.cleanAborted_keeps (e : Env) (i : Fin 24) (r : Recs) : r.Keeps (r.cleanAborted e i) := by
  unfold Recs.cleanAborted
  split
  · exact .refl r
  · exact Recs.Keeps.ite (((Recs.Quiet.ite ((Recs.changeObl_quiet ..).trans (Recs.raise_quiet ..)) (Recs.changeObl_quiet ..)).trans
      (Recs.dueTests_quiet ..)).trans (Recs.arbiter_quiet ..)).keeps (.refl r)

theorem Recs.idleEffects_keeps (e : Env) (i : Fin 24) (r : Recs) : r.Keeps (r.idleEffects e i) :=
  ((Recs.arbiter_quiet ..).keeps.trans (Recs.retireIfIdle_keeps ..)).trans (Recs.activationCheck_quiet ..).keeps

theorem Recs.takeActivity_keeps (e : Env) (i : Fin 24) (a : Activity) (r : Recs) : r.Keeps (r.takeActivity e i a) := by
  have h0 : r.Keeps (if r.activityIs i .cleaning then (r.modOven i fun o => { o with activity := a }).cleanLost e i
      else r.modOven i fun o => { o with activity := a }) :=
    Recs.Keeps.ite ((Recs.modOven_keeps ..).trans (Recs.cleanLost_keeps ..)) (Recs.modOven_keeps ..)
  unfold Recs.takeActivity
  refine Recs.Keeps.ite (.refl r) ?_
  cases a with
  | idle => exact h0.trans (Recs.idleEffects_keeps ..)
  | cooking => exact h0.trans (Recs.backToReady_quiet ..).keeps
  | cleaning => exact (Recs.cleanStart_keeps ..).trans (Recs.backToReady_quiet ..).keeps
  | updating => exact h0

theorem Recs.reconcile_keeps (e : Env) (i : Fin 24) (a : Activity) (recipe : Nat) (r : Recs) : r.Keeps (r.reconcile e i a recipe) := by
  have h : r.Keeps (r.reconcileCook e i a recipe) := by
    unfold Recs.reconcileCook
    split
    · exact Recs.Keeps.ite (Recs.closeCook_keeps ..)
        (Recs.Keeps.ite ((Recs.closeCook_keeps ..).trans (Recs.openCook_keeps ..)) (.refl r))
    · exact Recs.Keeps.ite (Recs.openCook_keeps ..) (.refl r)
  unfold Recs.reconcile Recs.settleRunning
  exact (h.trans (Recs.takeActivity_keeps ..)).trans (Recs.Keeps.ite (Recs.cleanLost_keeps ..) (.refl _))

theorem Recs.cookStart_keeps (e : Env) (i : Fin 24) (recipe v : Nat) (r : Recs) : r.Keeps (r.cookStart e i recipe v) := by
  have h := ((Recs.closeCook_keeps e i r).trans (Recs.openCook_keeps e i recipe (if v = 0 then none else some v)
    (decide (recipe ≠ 0) && ((r.closeCook e i).recordOf recipe v).isSome) _)).trans
    (Recs.modOven_keeps _ i fun o => { o with activity := .cooking })
  exact (Recs.Keeps.ite (h.trans (Recs.cleanLost_keeps e i _)) h).trans (Recs.backToReady_quiet e i _).keeps

theorem Recs.takeReport_keeps (e : Env) (i : Fin 24) (x : CookReport) (r : Recs) : r.Keeps (r.takeReport e i x) := by
  unfold Recs.takeReport
  exact Recs.Keeps.ite (.refl r) ((Recs.changeOven_keeps ..).trans (Recs.evaluateInService_quiet ..).keeps)

theorem Recs.cookEnd_keeps (e : Env) (i : Fin 24) (x : CookReport) (r : Recs) : r.Keeps (r.cookEnd e i x) :=
  ((Recs.takeReport_keeps ..).trans (Recs.closeCook_keeps ..)).trans (Recs.takeActivity_keeps ..)

theorem Recs.cleanStarted_keeps (e : Env) (i : Fin 24) (r : Recs) : r.Keeps (r.cleanStarted e i) :=
  (Recs.cleanStart_keeps ..).trans (Recs.backToReady_quiet ..).keeps

theorem Recs.cleanEnded_keeps (e : Env) (i : Fin 24) (l : Level) (complete : Bool) (r : Recs) :
    r.Keeps (r.cleanEnded e i l complete) := by
  unfold Recs.cleanEnded
  have h1 := Recs.modOven_keeps r i fun o => { o with activity := .idle }
  have h2 : r.Keeps (if complete then
      (((((r.modOven i fun o => { o with activity := .idle }).credit e i l).removeObl i).resolvePart e i
        hygieneClass).evaluateInService e i).arbiter e
      else (r.modOven i fun o => { o with activity := .idle }).cleanAborted e i) := by
    refine Recs.Keeps.ite (h1.trans ?_) (h1.trans (Recs.cleanAborted_keeps ..))
    exact Recs.Keeps.trans (Recs.changeOven_keeps ..) ((((Recs.removeObl_quiet ..).trans (Recs.resolvePart_quiet ..)).trans
      (Recs.evaluateInService_quiet ..)).trans (Recs.arbiter_quiet ..)).keeps
  exact Recs.Keeps.ite h2 (h2.trans (Recs.idleEffects_keeps ..))

/-! ## Reachability and commissioning (R6 to R15) -/

theorem Recs.goUnreachable_keeps (e : Env) (i : Fin 24) (r : Recs) : r.Keeps (r.goUnreachable e i) :=
  ((Recs.modOven_keeps ..).trans (Recs.latch_keeps ..)).trans (Recs.leaveWave_keeps ..)

theorem Recs.failCommission_keeps (e : Env) (i : Fin 24) (r : Recs) : r.Keeps (r.failCommission e i) :=
  ((((Recs.moveTo_keeps ..).trans (Recs.closeCook_keeps ..)).trans (Recs.takeActivity_keeps ..)).trans
    (Recs.raise_quiet ..).keeps).trans (Recs.latch_keeps ..)

theorem Recs.actOnMissed_keeps (e : Env) (i : Fin 24) (r : Recs) : r.Keeps (r.actOnMissed e i) := by
  unfold Recs.actOnMissed
  split
  · exact .refl r
  · split
    · exact Recs.Keeps.ite (Recs.failCommission_keeps ..) (.refl r)
    · exact Recs.Keeps.ite (Recs.failCommission_keeps ..) (.refl r)
    · exact Recs.Keeps.ite (Recs.failCommission_keeps ..) (.refl r)
    · exact Recs.Keeps.ite (Recs.Keeps.ite ((Recs.goUnreachable_keeps ..).trans (Recs.raise_quiet ..).keeps)
        (Recs.goUnreachable_keeps ..)) (.refl r)
    · exact Recs.Keeps.ite (Recs.goUnreachable_keeps ..) (.refl r)
    · exact Recs.Keeps.ite (Recs.goUnreachable_keeps ..) (.refl r)
    · exact .refl r

theorem Recs.missedTurn_keeps (e : Env) (i : Fin 24) (r : Recs) : r.Keeps (r.missedTurn e i) := by
  unfold Recs.missedTurn
  exact Recs.Keeps.ite (.refl r) ((Recs.modOven_keeps ..).trans (Recs.actOnMissed_keeps ..))

theorem Recs.heard_keeps (e : Env) (i : Fin 24) (r : Recs) : r.Keeps (r.heard e i) := by
  have h := (Recs.modOven_keeps r i fun o => { o with missed := 0, lastHeard := e.minute, unreachable := false }).trans
    (Recs.resolvePart_quiet e i linkClass _).keeps
  exact Recs.Keeps.ite ((h.trans (Recs.arbiter_quiet ..).keeps).trans (Recs.activationCheck_quiet ..).keeps) h

theorem Recs.assignAnswered_keeps (i : Fin 24) (r : Recs) : r.Keeps (r.assignAnswered i) := by
  unfold Recs.assignAnswered
  exact Recs.Keeps.ite (Recs.moveTo_keeps ..) (Recs.Keeps.ite (Recs.setStep_keeps ..) (.refl r))

theorem Recs.strangerReleased_keeps (i : Fin 24) (r : Recs) : r.Keeps (r.strangerReleased i) := by
  unfold Recs.strangerReleased
  split
  · exact .refl r
  · refine Recs.Keeps.ite ?_ (.refl r)
    split
    · exact Recs.moveTo_keeps ..
    · exact Recs.setStep_keeps ..
    · exact .refl r

theorem Recs.refit_keeps (e : Env) (i : Fin 24) (r : Recs) : r.Keeps (r.refit e i) :=
  (Recs.recompute_keeps ..).trans (Recs.shrinkCheck_keeps ..)

theorem Recs.rejoined_keeps (e : Env) (i : Fin 24) (x : CapsReport) (served : Bool) (r : Recs) :
    r.Keeps (r.rejoined e i x served) := by
  have h := ((((Recs.changeOven_keeps r i fun o =>
      { o with capability := some x.capability, model := x.model, firmware := x.firmware }).trans
    (Recs.compareDigest_keeps i x.digest _)).trans (Recs.refit_keeps e i _)).trans (Recs.changeOven_keeps _ i fun o =>
      { o with step := none, missed := 0, unreachable := false, lifecycle := if served then .inService else .loading }))
  exact Recs.Keeps.ite (h.trans (Recs.enteredService_keeps ..)) (h.trans (Recs.loadingTest_keeps ..))

theorem Recs.capsReport_keeps (e : Env) (i : Fin 24) (x : CapsReport) (r : Recs) : r.Keeps (r.capsReport e i x) := by
  have hs : r.Keeps (r.storeCaps i x) := Recs.changeOven_keeps ..
  have hf : r.Keeps ((r.storeCaps i x).refit e i) := hs.trans (Recs.refit_keeps ..)
  have hc : ∀ f : Oven → Oven, r.Keeps
      (((((r.storeCaps i x).compareDigest i x.digest).refit e i).modOven i f).loadingTest e i) := fun f =>
    (((hs.trans (Recs.compareDigest_keeps ..)).trans (Recs.refit_keeps ..)).trans (Recs.modOven_keeps ..)).trans
      (Recs.loadingTest_keeps ..)
  unfold Recs.capsReport
  split
  · exact .refl r
  · refine Recs.Keeps.ite (.refl r) (Recs.Keeps.ite ?_ ?_)
    · split
      · exact ((hs.trans (Recs.moveTo_keeps ..)).trans (Recs.storeAfresh_keeps ..)).trans (Recs.retarget_keeps ..)
      · exact Recs.rejoined_keeps ..
      · exact hc _
      · exact hc _
      · exact hf
      · exact hf
      · exact .refl r
    · split
      · exact Recs.setStep_keeps ..
      · exact Recs.setStep_keeps ..
      · exact Recs.rejoin_keeps ..
      · exact Recs.rejoin_keeps ..
      · exact .refl r
      · exact .refl r
      · exact .refl r

end Sys2Proof.Machine
end

