-- ==== Sys2Proof/Laws/Bus.lean ====
section
/-!
SUPPORT. What the oven bus's operations keep, one lemma for each: boots and activations, discovery replies, update
events, replies, turns and rounds (R3, R27 to R41, R150 to R162).
-/
namespace Sys2Proof.Machine

/-! ## Hold reasons told (R136) -/

theorem Recs.tellHolds_keeps (e : Env) (before after : Recs) : after.Keeps (Recs.tellHolds e before after) := by
  have h1 : after.Keeps (slots.foldl (fun r i =>
      if (before.reasons i).gained (after.reasons i) then r.revoke e i else r) after) :=
    Recs.Keeps.foldl (fun r i => Recs.Keeps.ite (Recs.revoke_quiet ..).keeps (.refl r)) _ _
  have h2 := h1.trans (Recs.Keeps.ite
    (c := (slots.any fun i => before.staysIn after i && (before.reasons i).lost (after.reasons i)) = true)
    (Recs.arbiter_quiet e _).keeps (.refl _))
  exact h2.trans (Recs.Keeps.ite (Recs.upeCheck_quiet ..).keeps (.refl _))

/-- A change told to the neighbours keeps what the change itself keeps. -/
theorem Recs.withHolds_keeps {e : Env} {f : Recs → Recs} {r : Recs} (h : r.Keeps (f r)) : r.Keeps (Recs.withHolds e f r) := by
  exact h.trans (Recs.tellHolds_keeps ..)

/-! ## Boots, activations and discovery (R3, R11, R13, R161, R162) -/

theorem Recs.bootedActivating_keeps (e : Env) (i : Fin 24) (fw target : Firmware) (r : Recs) :
    r.Keeps (r.bootedActivating e i fw target) := by
  unfold Recs.bootedActivating
  have h1 := (Recs.endActivating_quiet i (fun m => if decide (fw = target) = true then { m with state := .done }
    else { m with state := .failed, fail := some .rollback }) r).keeps
  have h2 := h1.trans (Recs.Keeps.ite (c := decide (fw = target) = true) (.refl _) (Recs.raise_quiet e i updateClass .degraded _).keeps)
  have h3 := (h2.trans (Recs.changeOven_keeps _ i fun o => { o with firmware := fw, activity := .idle })).trans
    (Recs.storeAfresh_keeps e i false _)
  refine Recs.Keeps.trans (Recs.Keeps.trans (Recs.Keeps.trans (Recs.Keeps.trans (Recs.Keeps.trans ?_ (Recs.mark_keeps ..))
    (Recs.mark_keeps ..)) (Recs.arbiter_quiet ..).keeps) (Recs.activationCheck_quiet ..).keeps) (Recs.finishTest_quiet _).keeps
  refine Recs.Keeps.trans (Recs.Keeps.trans (Recs.Keeps.ite (Recs.Keeps.trans ?_ (Recs.cleanLost_keeps ..)) ?_)
    (Recs.retireIfIdle_keeps ..)) (Recs.latch_keeps ..)
  · exact Recs.Keeps.ite (h3.trans (Recs.rejoin_keeps ..)) h3
  · exact Recs.Keeps.ite (h3.trans (Recs.rejoin_keeps ..)) h3

theorem Recs.booted_keeps (e : Env) (i : Fin 24) (fw : Firmware) (r : Recs) : r.Keeps (r.booted e i fw) := by
  unfold Recs.booted
  split
  · exact Recs.bootedActivating_keeps ..
  · exact Recs.Keeps.ite (Recs.rejoin_keeps ..) (.refl r)

theorem Recs.activationTimedOut_keeps (e : Env) (i : Fin 24) (r : Recs) : r.Keeps (r.activationTimedOut e i) := by
  unfold Recs.activationTimedOut Recs.leaveActivating
  refine Recs.Keeps.ite ?_ (.refl r)
  exact ((((((Recs.endActivating_quiet ..).trans (Recs.arbiter_quiet ..)).trans (Recs.raise_quiet ..)).trans
    (Recs.latch_quiet ..)).keeps.trans (Recs.retireIfIdle_keeps ..)).trans (Recs.activationCheck_quiet ..).keeps).trans
    (Recs.finishTest_quiet _).keeps

theorem Recs.duplicate_keeps (e : Env) (i : Fin 24) (r : Recs) : r.Keeps (r.duplicate e i) := by
  unfold Recs.duplicate
  split
  · exact .refl r
  · split <;> first | exact .refl r | exact Recs.rejoin_keeps ..

theorem Recs.discoveryReply_keeps (e : Env) (serial : Serial) (model : Nat) (fw : Firmware) (r : Recs) :
    r.Keeps (r.discoveryReply e serial model fw) := by
  unfold Recs.discoveryReply
  refine Recs.Keeps.ite (.refl r) ?_
  split
  · exact Recs.duplicate_keeps ..
  · exact Recs.Keeps.ite (.refl r) (Recs.Keeps.ite ⟨rfl, id, id⟩ (Recs.Keeps.ite ⟨rfl, id, id⟩ (.refl r)))

theorem Recs.hearDiscovery_keeps (e : Env) (k : Fin 8) (frame : List Byte) (r : Recs) : r.Keeps (r.hearDiscovery e k frame) := by
  unfold Recs.hearDiscovery
  split
  · exact .refl r
  · exact Recs.Keeps.ite (Recs.discoveryReply_keeps ..) (.refl r)

/-! ## Update events (R150 to R156) -/

theorem Recs.topUp_keeps (r : Recs) : r.Keeps r.topUp := Recs.modCampaign_keeps ..

theorem Recs.verifyTest_keeps (p : Member → Bool) (r : Recs) : r.Keeps (r.verifyTest p) := by
  unfold Recs.verifyTest
  split
  · exact .refl r
  · exact Recs.Keeps.ite (Recs.changeCampaign_keeps ..) (.refl r)

theorem Recs.endStreaming_keeps (r : Recs) : r.Keeps r.endStreaming := by
  unfold Recs.endStreaming
  split
  · exact .refl r
  · exact Recs.Keeps.ite ((Recs.Keeps.ite ((r.campaign_quiet _).keeps.trans (Recs.mark_keeps ..)) (r.campaign_quiet _).keeps).trans
      (Recs.topUp_keeps _)) (.refl r)

theorem Recs.chunkSent_keeps (index : Nat) (r : Recs) : r.Keeps (r.chunkSent index) :=
  (((Recs.modCampaign_keeps ..).trans (Recs.topUp_keeps _)).trans (Recs.verifyTest_keeps ..)).trans (Recs.endStreaming_keeps _)

theorem Recs.updateReady_keeps (e : Env) (i : Fin 24) (id : Nat) (ok : Bool) (r : Recs) : r.Keeps (r.updateReady e i id ok) := by
  unfold Recs.updateReady
  split
  · refine Recs.Keeps.ite (Recs.Keeps.ite (Recs.Keeps.ite ?_ (Recs.changeMember_keeps ..)) (Recs.waveFailure_keeps ..)) (.refl r)
    exact ((Recs.changeMember_keeps ..).trans (Recs.modCampaign_keeps ..)).trans (Recs.topUp_keeps _)
  · exact .refl r

theorem Recs.updateGap_keeps (e : Env) (i : Fin 24) (id : Nat) (indices : List Nat) (r : Recs) :
    r.Keeps (r.updateGap e i id indices) := by
  unfold Recs.updateGap
  split
  · refine Recs.Keeps.ite (Recs.Keeps.ite ((Recs.modMember_keeps ..).trans (Recs.waveFailure_keeps ..))
      (Recs.Keeps.ite ((Recs.modMember_keeps ..).trans (Recs.waveFailure_keeps ..)) (Recs.Keeps.trans (Recs.Keeps.ite ?_ ?_)
        (Recs.topUp_keeps _)))) (.refl r)
    · exact ((Recs.modMember_keeps ..).trans (Recs.modMember_keeps ..)).trans (Recs.changeMember_keeps ..)
    · exact (Recs.modMember_keeps ..).trans (Recs.modMember_keeps ..)
  · exact .refl r

theorem Recs.updateComplete_keeps (i : Fin 24) (id : Nat) (r : Recs) : r.Keeps (r.updateComplete i id) := by
  unfold Recs.updateComplete
  split
  · exact Recs.Keeps.ite ((Recs.modMember_keeps ..).trans (Recs.verifyTest_keeps ..)) (.refl r)
  · exact .refl r

theorem Recs.verifyResult_keeps (e : Env) (i : Fin 24) (id result : Nat) (r : Recs) : r.Keeps (r.verifyResult e i id result) := by
  unfold Recs.verifyResult
  split
  · refine Recs.Keeps.ite (Recs.Keeps.ite (Recs.Keeps.ite ?_ (Recs.Keeps.ite (.refl r) (Recs.waveFailure_keeps ..)))
      (Recs.Keeps.ite (Recs.backToReady_quiet ..).keeps (.refl r))) (.refl r)
    exact ((Recs.changeMember_keeps ..).trans (Recs.activationCheck_quiet ..).keeps).trans (Recs.waveEnd_keeps ..)
  · exact .refl r

/-! ## Replies (R32 to R37) -/

theorem Recs.deliver_keeps (e : Env) (i : Fin 24) (ev : Event) (r : Recs) : r.Keeps (r.deliver e i ev) := by
  cases ev with
  | cookStart => exact Recs.cookStart_keeps ..
  | cookEnd => exact Recs.cookEnd_keeps ..
  | cleanStart => exact Recs.cleanStarted_keeps ..
  | cleanEnd => exact Recs.cleanEnded_keeps ..
  | fault => exact (Recs.report_quiet ..).keeps
  | faultClear => exact (Recs.faultClear_quiet ..).keeps
  | recipeAck => exact (Recs.recipeAck_keeps ..).trans (Recs.loadingTest_keeps ..)
  | updateReady => exact Recs.updateReady_keeps ..
  | updateGap => exact Recs.updateGap_keeps ..
  | updateComplete => exact Recs.updateComplete_keeps ..
  | verifyResult => exact Recs.verifyResult_keeps ..
  | booted => exact Recs.booted_keeps ..
  | caps => exact Recs.capsReport_keeps ..

theorem Recs.takeEvent_keeps (e : Env) (i : Fin 24) (p : List Byte) (r : Recs) : r.Keeps (r.takeEvent e i p) := by
  unfold Recs.takeEvent
  split
  · exact .refl r
  · refine Recs.Keeps.ite (.refl r) ?_
    dsimp only
    split
    · exact (Recs.modOven_keeps ..).trans (Recs.withHolds_keeps (Recs.deliver_keeps ..))
    · exact Recs.modOven_keeps ..

theorem Recs.takeStatus_keeps (e : Env) (i : Fin 24) (x : Strength) (s : Status4) (r : Recs) : r.Keeps (r.takeStatus e i x s) := by
  have h := (Recs.modObm_keeps r fun b => { b with more := s.more }).trans (Recs.modOven_keeps _ i fun o =>
    { o with applied := some s.applied, mismatch := decide (s.applied.code < x.code) })
  unfold Recs.takeStatus
  dsimp only
  split
  · exact Recs.Keeps.ite (h.trans (Recs.withHolds_keeps (Recs.reconcile_keeps ..))) h
  · exact h

theorem Recs.delivered_keeps (e : Env) (i : Fin 24) (w : Work) (r : Recs) : r.Keeps (r.delivered e i w) := by
  unfold Recs.delivered
  split
  · exact Recs.assignAnswered_keeps ..
  · exact Recs.strangerReleased_keeps ..
  · exact Recs.modOven_keeps ..
  · exact Recs.modOven_keeps ..
  · exact Recs.Keeps.ite ((Recs.modMember_keeps ..).trans (Recs.takeActivity_keeps ..)) (.refl r)
  · exact Recs.modMember_keeps ..
  · exact (Recs.clearDelivered_keeps ..).trans (Recs.loadingTest_keeps ..)
  · exact Recs.modOven_keeps ..
  · exact Recs.modOven_keeps ..
  all_goals exact .refl r

theorem Recs.notDelivered_keeps (i : Fin 24) (w : Work) (r : Recs) : r.Keeps (r.notDelivered i w) := by
  unfold Recs.notDelivered
  split
  · exact Recs.strangerReleased_keeps ..
  · exact Recs.modOven_keeps ..
  · exact Recs.modOven_keeps ..
  · exact .refl r

/-! ## Turns and rounds (R27, R28, R30, R38) -/

theorem Recs.afterData_keeps (e : Env) (r : Recs) : r.Keeps (r.afterData e) := Recs.modObm_keeps ..

theorem Recs.dataStep_keeps (e : Env) (r : Recs) : r.Keeps (r.dataStep e) := by
  unfold Recs.dataStep
  split
  · exact Recs.modObm_keeps ..
  · exact Recs.afterData_keeps ..

theorem Recs.broadcastChunk_keeps (e : Env) (c : Campaign) (k : Chunk) (r : Recs) : r.Keeps (r.broadcastChunk e c k) :=
  (((Recs.modObm_keeps r _).trans (Recs.modCampaign_keeps ..)).trans (Recs.chunkSent_keeps ..)).trans
    ((Recs.modObm_keeps ..).trans (Recs.dataStep_keeps ..))

theorem Recs.beginTurn_keeps (e : Env) (i : Fin 24) (r : Recs) : r.Keeps (r.beginTurn e i) := by
  have h := ((Recs.modObm_keeps r fun b => { b with phase := .turn, position := some i, freed := false, exchange := none
                                                    exchanges := 0, hadTurn := true }).trans
    (Recs.modOven_keeps _ i fun o =>
      { o with releaseDue := o.releaseDue || (decide (o.lifecycle = .retiring) && decide (o.step = some .release)) })).trans
    (Recs.modMember_keeps _ i fun m => { m with waits := false })
  exact Recs.Keeps.ite (h.trans (Recs.activationCheck_quiet ..).keeps) h

theorem Recs.nextTurn_keeps (e : Env) (r : Recs) : r.Keeps (r.nextTurn e) := by
  unfold Recs.nextTurn
  split
  · exact Recs.beginTurn_keeps ..
  · exact (Recs.modObm_keeps ..).trans (Recs.dataStep_keeps ..)

theorem Recs.countBeginTurn_keeps (e : Env) (i : Fin 24) (r : Recs) : r.Keeps (r.countBeginTurn e i) := by
  unfold Recs.countBeginTurn
  split
  · exact .refl r
  · exact Recs.Keeps.ite (Recs.Keeps.ite ((Recs.modMember_keeps ..).trans (Recs.leaveWave_keeps ..)) (Recs.modMember_keeps ..)) (.refl r)

theorem Recs.endTurn_keeps (e : Env) (i : Fin 24) (r : Recs) : r.Keeps (r.endTurn e i) :=
  (Recs.Keeps.ite (.refl r) (Recs.countBeginTurn_keeps ..)).trans (Recs.nextTurn_keeps ..)

theorem Recs.startRound_keeps (e : Env) (first : Bool) (r : Recs) : r.Keeps (r.startRound e first) :=
  (Recs.modObm_keeps ..).trans (Recs.nextTurn_keeps ..)

theorem Recs.settleBus_keeps (e : Env) (r : Recs) : r.Keeps (r.settleBus e) := by
  unfold Recs.settleBus
  split
  · exact Recs.Keeps.ite (Recs.endTurn_keeps ..) (.refl r)
  · exact Recs.dataStep_keeps ..
  · exact .refl r

theorem Recs.takeReply_keeps (e : Env) (i : Fin 24) (x : Exchange) (p : List Byte) (r : Recs) : r.Keeps (r.takeReply e i x p) := by
  have h := (((Recs.heard_keeps e i r).trans (Recs.withHolds_keeps (e := e) (Recs.delivered_keeps e i x.work _))).trans
    (Recs.takeEvent_keeps e i p _)).trans (Recs.takeStatus_keeps e i x.carried (statusOf p) _)
  exact Recs.Keeps.ite (h.trans (Recs.modObm_keeps ..)) (h.trans (Recs.endTurn_keeps ..))

theorem Recs.succeed_keeps (e : Env) (i : Fin 24) (x : Exchange) (p : List Byte) (r : Recs) : r.Keeps (r.succeed e i x p) := by
  unfold Recs.succeed
  exact Recs.Keeps.ite (Recs.endTurn_keeps ..) (Recs.Keeps.ite ((Recs.vacateSlot_keeps ..).trans (Recs.endTurn_keeps ..))
    (Recs.takeReply_keeps ..))

theorem Recs.fail_keeps (e : Env) (i : Fin 24) (x : Exchange) (r : Recs) : r.Keeps (r.fail e i x) := by
  unfold Recs.fail
  exact Recs.Keeps.ite (Recs.endTurn_keeps ..) (Recs.Keeps.ite ((Recs.vacateSlot_keeps ..).trans (Recs.endTurn_keeps ..))
    (((Recs.notDelivered_keeps ..).trans (Recs.withHolds_keeps (Recs.missedTurn_keeps ..))).trans (Recs.endTurn_keeps ..)))

theorem Recs.commitWork_keeps (i : Fin 24) (w : Work) (r : Recs) : r.Keeps (r.commitWork i w) := by
  unfold Recs.commitWork
  split
  · exact Recs.modOven_keeps ..
  · exact Recs.modMember_keeps ..
  · exact Recs.modOven_keeps ..
  · exact Recs.modOven_keeps ..
  · exact .refl r

theorem Recs.beginExchange_keeps (e : Env) (i : Fin 24) (r : Recs) : r.Keeps (r.beginExchange e i) := by
  unfold Recs.beginExchange
  split
  · exact .refl r
  · exact ((Recs.commitWork_keeps ..).trans (Recs.modObm_keeps ..)).trans (Recs.modObm_keeps ..)

end Sys2Proof.Machine
end

