-- ==== Sys2Proof/Tests/Slice0.lean ====
section
/-!
SUPPORT. Tests. Expected values come from the rules and the worked examples of spec/ (named in each comment) or from the
published check values of the CRCs; then, for each statement of Obligations.lean with hypotheses, a state and operands
that meet them, at the ends of their ranges.
-/
open Sys2Proof Sys2Proof.Machine
namespace Sys2Proof.Tests

set_option Elab.async false

/-! ## Small states -/

/-- The part in the LIVE phase, between two rounds, with no record. -/
def live : State :=
  { State.reset with site :=
    { env := { Env.reset with phase := .live }, recs := { Recs.reset with obm := { Obm.reset with phase := .waiting } } } }

/-- The entry of the worked example 1.11: serial 40,960,117, model 310, firmware 4.2.118. -/
def seen : Discovered :=
  { serial := 40960117#48, model := 310, firmware := { major := 4#8, minor := 2#8, build := 118#16 }, sightings := 1, firstSeen := 50010#32 }

/-- A record as ADMIT makes it in zone 1, group 2. -/
def fresh : Oven := Env.reset.newOven seen 1 2

/-- The capability of the worked example 1.11. -/
def able : Capability := { tempMin := 30, tempMax := 300, steam := true, probe := true, maxStages := 12, capacity := 30 }

/-- An oven in service. -/
def oven : Oven := { fresh with lifecycle := .inService, served := true, step := none, capability := some able }

/-- The LIVE part with other records. -/
def holding (f : Recs → Recs) : State := live.withRecs (f live.site.recs)

/-- The LIVE part with one oven in slot 6. -/
def one (o : Oven) : State := holding fun r => r.putOven 6 (some o)

/-- The LIVE part whose bus master is as given. -/
def onBus (o : Oven) (f : Obm → Obm) : State := holding fun r => (r.putOven 6 (some o)).modObm f

/-- A step answers a next state with a property. -/
def after (c : Instr) (s : State) (p : State → Bool) : Bool :=
  match exec c s with
  | .next t => p t
  | _ => false

/-- The status and payload of the response that a step places. -/
def answers (c : Instr) (s : State) (st : Status) (out : List Byte) : Bool :=
  after c s fun t => decide (t.port.response = some { code := requestCode c, status := st, payload := out })

/-! ## Well-formed commands: each check refuses an ill-formed term -/

theorem test_wf_request_write_of_one_byte : (Instr.requestWrite [0x70#8]).wf = false := by decide +kernel
theorem test_wf_request_write_of_a_read : (Instr.requestWrite [0x80#8, 0#8]).wf = false := by decide +kernel
theorem test_wf_request_dropped_of_nothing : (Instr.requestDropped []).wf = false := by decide +kernel
theorem test_wf_recipe_write_of_a_short_name : (Instr.recipeWrite 1#16 1#8 0#8 0#8 0#8 0#8 [] []).wf = false := by decide +kernel
theorem test_wf_recipe_write_of_too_many_stages :
    (Instr.recipeWrite 1#16 1#8 0#8 0#8 0#8 0#8 (List.replicate 20 0#8) (List.replicate 61 ⟨0#8, 0#8, 0#8, 0#8, 0#16, 0#16⟩)).wf
      = false := by decide +kernel
theorem test_wf_soil_setting_of_another_block : (Instr.setSettingSoil 0x0F#8 0#16).wf = false := by decide +kernel
theorem test_wf_cleaning_setting_of_another_block : (Instr.setSettingCleaning 0x0E#8 0#16).wf = false := by decide +kernel
theorem test_wf_chunk_of_127_bytes : (Instr.chunkPut 1#16 0#16 (List.replicate 127 0#8)).wf = false := by decide +kernel
theorem test_wf_image_of_511_bytes : (Instr.restorePut 0#8 0#8 (List.replicate 511 0#8)).wf = false := by decide +kernel
theorem test_wf_reply_of_262_bytes : (Instr.exchangeSuccess (List.replicate 262 0#8)).wf = false := by decide +kernel
theorem test_wf_discovery_reply_of_262_bytes : (Instr.discoveryReply 0 (List.replicate 262 0#8)).wf = false := by decide +kernel
theorem test_wf_gap_report_of_none : (Instr.repairLimit 0 []).wf = false := by decide +kernel
theorem test_wf_gap_report_of_five : (Instr.repairLimit 0 [1, 2, 3, 4, 5]).wf = false := by decide +kernel
theorem test_wf_formed_commands : (Instr.requestWrite [0x70#8, 0#8]).wf = true ∧ Instr.getInfo.wf = true
    ∧ (Instr.chunkPut 1#16 0#16 (List.replicate 128 0#8)).wf = true := by decide +kernel

/-! ## Check sums and frames -/

/-- The published check values of the two CRCs on "123456789" (R189, R143 name their parameters). -/
theorem test_crc16_check : crc16 [0x31#8, 0x32#8, 0x33#8, 0x34#8, 0x35#8, 0x36#8, 0x37#8, 0x38#8, 0x39#8] = 0x29B1#16 := by decide +kernel
theorem test_crc32_check : crc32 [0x31#8, 0x32#8, 0x33#8, 0x34#8, 0x35#8, 0x36#8, 0x37#8, 0x38#8, 0x39#8] = 0xCBF43926#32 := by decide +kernel
theorem test_crc32_of_nothing : crc32 [] = 0#32 := by decide +kernel

/-- A request frame: code, payload length low byte first, payload, CRC-16 high byte first (R166, R186). -/
def frameOf (code : Byte) (p : List Byte) : List Byte := (code :: u16 p.length ++ p) ++ crc16Bytes (code :: u16 p.length ++ p)

theorem test_frame_admit : (checkFrame (frameOf 0x01#8 [0x75#8, 0#8, 0x71#8, 0x02#8, 0#8, 0#8, 6#8, 1#8, 2#8])).toOption
    = some (.admitOven 40960117#48 6#8 1#8 2#8) := by decide +kernel
theorem test_frame_set_clock : (checkFrame (frameOf 0x18#8 [0x40#8, 0x42#8, 0x0F#8, 0#8, 0x3C#8, 0#8])).toOption
    = some (.setClock 1000000#32 60#16) := by decide +kernel
/-- The status that the HPU answers to a frame. -/
def turnedAway (frame : List Byte) : Option Status :=
  match checkFrame frame with
  | .error why => some why
  | .ok _ => none

theorem test_frame_unknown_code : turnedAway (frameOf 0x7F#8 []) = some .unknownRequest := by decide +kernel
theorem test_frame_bad_length : turnedAway (frameOf 0x06#8 [0#8]) = some .badLength := by decide +kernel
theorem test_frame_bad_crc : turnedAway [0x70#8, 0#8, 0#8, 0#8, 0#8] = some .frameError := by decide +kernel

/-! ## One step, from the worked examples and the tables of the rules -/

/-- R48's list: CLOSED at 120, PREP at 270, TRADING at 360. -/
def dayParts : List SchedEntry := [⟨120, .closed⟩, ⟨270, .prep⟩, ⟨360, .trading⟩]

theorem test_scheduled_mode_table : scheduledMode dayParts 0 = some .trading ∧ scheduledMode dayParts 119 = some .trading
    ∧ scheduledMode dayParts 120 = some .closed ∧ scheduledMode dayParts 269 = some .closed
    ∧ scheduledMode dayParts 270 = some .prep ∧ scheduledMode dayParts 1439 = some .trading := by decide +kernel

/-- 3.7: site minute 1,000,000 with offset 60 is minute of day 700. -/
theorem test_set_clock_minute_of_day : answers (.setClock 1000000#32 60#16) State.reset .ok
    [0x40#8, 0x42#8, 0x0F#8, 0#8, 60#8, 0#8, 0xBC#8, 0x02#8] = true := by decide +kernel

/-- 3.7: the boundary at 150 puts CLOSED in force and latches MODE_CHANGED. -/
theorem test_minute_expiry_reaches_boundary :
    let s : State := { live with site := { live.site with env := { live.site.env with
      clockValid := true, minute := 1000889#32, offset := 60, fraction := 59999, overridden := true
      schedule := [⟨150, .closed⟩, ⟨270, .prep⟩, ⟨360, .trading⟩] } } }
    after .minuteExpiry s (fun t => decide (t.site.env.mode = .closed ∧ t.site.env.overridden = false ∧ t.site.env.minute = 1000890#32
      ∧ t.site.recs.latched = Cause.modeChanged.bit)) = true := by decide +kernel

/-- 1.11: what ADMIT writes. -/
theorem test_admit_example :
    after (.admitOven 40960117#48 6#8 1#8 2#8) (holding fun r => { r with discovered := [seen] }) (fun t =>
      decide (t.site.recs.oven 6 = some { fresh with lastHeard := 0#32 } ∧ t.site.recs.discovered = []
        ∧ t.site.recs.persist.get (.oven 6) = true ∧ t.site.recs.persist.count = 1)) = true := by decide +kernel

/-- 2.10: the two serials answer in reply slots 4 and 3 of the sweep with seed 17. -/
theorem test_reply_slots_of_the_sweep : replySlotOf 40960245#48 17 = 4 ∧ replySlotOf 40960002#48 17 = 3 := by decide +kernel

/-- 2.10: HALT(1) carries zone 1 and the address set of addresses 4 and 6, a FAILED record's among them. -/
theorem test_halt_addresses :
    after .haltSend (holding fun r => (((r.putOven 3 (some oven)).putOven 5 (some { oven with lifecycle := .failed })).modObm fun b =>
      { b with halts := [⟨1, 3⟩] })) (fun t => decide (t.site.recs.obm.halts = [⟨1, 2⟩]
        ∧ t.site.recs.obm.line = busFrame 0xFF#8 0x41#8 [1#8, 0x28#8, 0#8, 0#8])) = true := by decide +kernel

/-- 2.10: the third missed turn of slot 7 sets the unreachable flag, latches UNREACHABLE and opens a LINK ticket at NOTICE. -/
theorem test_third_missed_turn :
    after (.unreachable 6) (one { oven with missed := 2 }) (fun t =>
      (t.site.recs.oven 6).any (fun o => o.unreachable && decide (o.missed = 3))
        && (t.site.recs.ticket 0).any (fun x => decide (x.cls.val = 28 ∧ x.severity = .notice ∧ x.number = 1))) = true := by decide +kernel

/-- 6.7: the report of three stages with factor 6. -/
theorem test_soil_report_example :
    soilAfter SoilSettings.reset 6 [⟨2, 200, 1500⟩, ⟨0, 160, 600⟩, ⟨3, 75, 900⟩] { score := 1850, residue := 100, hygiene := 40, carry := 20 }
      = { score := 2054, residue := 460, hygiene := 0, carry := 20 } := by decide +kernel

/-- 6.8: the report at the limits, a manual cook with factor 5 and a mode code that names nothing. -/
theorem test_soil_report_at_the_limits :
    soilAfter SoilSettings.reset 5 [⟨9, 320, 20000⟩] { score := 65000, residue := 900, hygiene := 500, carry := 30 }
      = { score := 65535, residue := 900, hygiene := 260, carry := 30 } := by decide +kernel

/-- 6.7: the LIGHT credit keeps the residue. -/
theorem test_light_credit : SoilSettings.reset.credited .light { score := 2054, residue := 460, hygiene := 0, carry := 20 }
    = { score := 0, residue := 460, hygiene := 1200, carry := 0 } := by decide +kernel

/-- An exchange in progress with the oven in slot 6. -/
def exchanging (o : Oven) (work : Work) (kind : Kind) : State :=
  onBus o fun b => { b with phase := .listening, position := some 6, exchanges := 1
                            exchange := some { work := work, kind := kind, address := 7#8, payload := [], attempts := 1, carried := .none } }

/-- 6.7 over the bus: the COOK_END brings the soil values, the LIGHT obligation due in 720 minutes and CLEAN_DUE. -/
theorem test_cook_end_over_the_bus :
    let o := { oven with soil := { score := 1850, residue := 100, hygiene := 40, carry := 20 }, activity := .cooking }
    let s := (exchanging o .poll .poll).withRecs
      ((exchanging o .poll .poll).site.recs.putRecipe 0 (some
        { id := 212, version := 3, name := [], factor := 6, mask := 0#8, rank := 0, state := .published, stages := [] }))
    after (.exchangeSuccess (busFrame 7#8 0x01#8 ([0#8, 0#8, 0#8, 0#8, 2#8, 0#8] ++ (u16 212 ++ [3#8, 0#8, 3#8]
        ++ ([2#8] ++ u16 200 ++ u16 1500 ++ [0#8]) ++ ([0#8] ++ u16 160 ++ u16 600 ++ [0#8]) ++ ([3#8] ++ u16 75 ++ u16 900 ++ [0#8])))))
      s (fun t => (t.site.recs.oven 6).any (fun o => decide (o.soil = { score := 2054, residue := 460, hygiene := 0, carry := 20 }
          ∧ o.tag = some false ∧ o.activity = .idle) && o.obligation.any fun b => decide (b.level = .light ∧ b.deadline = 720#32))
        && t.site.recs.latched.getLsbD Cause.cleanDue.number) = true := by decide +kernel

/-- 7.10: from P = 10 the walk reaches slot 15 before slot 6; P becomes 16. -/
theorem test_arbiter_walk :
    let b : Obligation := { level := .light, raisedAt := 0#32, deadline := 99#32, state := .due, overdue := false, locked := false
                            aborts := 0, grant := none }
    let due : Oven := { oven with obligation := some b }
    let r := ((((live.site.recs.putOven 6 (some due)).putOven 8 (some oven)).putOven 15 (some { due with zone := 2 })).putOven 17
      (some { oven with zone := 2, activity := .cooking }))
    let t := Recs.arbiter live.site.env { r with first := 10, sequence := 31 }
    t.oblIs 15 .granted = true ∧ t.oblIs 6 .granted = false ∧ t.first = 16 ∧ t.sequence = 32 := by decide +kernel

/-- R113: OBLIGATION_OVERDUE that finds nothing overdue is no cause of an arbiter run, which would grant here. -/
theorem test_nothing_overdue_runs_no_arbiter :
    let b : Obligation := { level := .light, raisedAt := 0#32, deadline := 99#32, state := .due, overdue := false, locked := false
                            aborts := 0, grant := none }
    let s0 := one { oven with obligation := some b }
    let s : State := { s0 with site := { s0.site with env := { s0.site.env with reserves := Vector.replicate 4 0 } } }
    (s.site.recs.arbiter s.site.env).oblIs 6 .granted = true ∧ after (.obligationOverdue 6) s (fun t => decide (t = s)) = true := by
  decide +kernel

/-- R116, R22: the revocation of a grant as retirement proceeds makes the overdue comparison before the obligation goes. -/
theorem test_retirement_makes_the_overdue_comparison :
    let b : Obligation := { level := .light, raisedAt := 0#32, deadline := 0#32, state := .granted, overdue := false, locked := false
                            aborts := 0, grant := some { level := .light, issuedAt := 0#32, sequence := 1 } }
    after (.retire 6#8 0#8) (one { oven with obligation := some b, grantTelegram := .sent }) (fun t =>
      t.site.recs.latched.getLsbD Cause.cleanOverdue.number
        && t.site.recs.ovenIs 6 fun o => decide (o.obligation = none ∧ o.revokeOwed = false ∧ o.lifecycle = .retiring)) = true := by
  decide +kernel

/-- 8.8: a STOP ticket that the oven has not cleared is not resolved without force. -/
def stopTicket : Ticket :=
  { number := 57, slot := 6, cls := 12, code := 3044#16, severity := .stop, state := .dispatched, origin := .oven, route := .both
    occurrences := 3, repeated := false, cleared := false, openedAt := 120000#32, lastAt := 120030#32, resolvedAt := none }

/-- The LIVE part with the oven of slot 6 and one ticket in place 9. -/
def ticketed (x : Ticket) : State := holding fun r => (r.putOven 6 (some oven)).putTicket 9 (some x)

theorem test_resolve_without_force : answers (.resolve 57#16 0#8) (ticketed stopTicket) .wrongState [] = true := by decide +kernel
theorem test_resolve_with_force : after (.resolve 57#16 1#8) (ticketed stopTicket) (fun t =>
    decide ((t.site.recs.ticket 9).map Ticket.state = some .resolved) && decide (t.site.recs.strength 6 = .none)) = true := by
  decide +kernel

/-- 8.8: the second report merges, sets the repeat flag and latches TICKET_REPEAT alone. -/
theorem test_report_merges :
    let r := (ticketed { stopTicket with severity := .notice, state := .opened, occurrences := 1, code := 3021#16 }).site.recs
    let t := r.report live.site.env 6 12 3021#16 .notice .oven
    (t.ticket 9).map (fun x => (x.occurrences, x.repeated)) = some (2, true) ∧ t.latched = Cause.ticketRepeat.bit := by decide +kernel

/-- 10.7: ACK makes the TICKET index DIRTY, so PERSIST is pending and ATTN_N falls; READ_ATTENTION clears CLEAN_DUE alone. -/
theorem test_ack_lowers_attn :
    let s0 := ticketed { stopTicket with state := .opened }
    let s := { s0 with site := { s0.site with env := { s0.site.env with enable := Cause.persist.bit } } }
    s.attnN = true ∧ after (.ack 57#16) s (fun t => !t.attnN && decide (t.port.state = .ready)) = true := by decide +kernel
theorem test_read_attention_clears :
    after .readAttention (holding fun r => { r with latched := Cause.cleanDue.bit, persist := r.persist.mark .settings }) (fun t =>
      decide (t.site.recs.latched = 0#16 ∧ t.site.recs.pendingSet = Cause.persist.bit)) = true := by decide +kernel

/-- 10.7: a request in READY is dropped with OVERRUN. -/
theorem test_request_in_ready_is_dropped :
    after (.resolve 57#16 0#8) { live with port := { live.port with state := .ready, response := some ⟨0x49#8, .ok, []⟩ } } (fun t =>
      t.port.overrun && decide (t.site = live.site)) = true := by decide +kernel

/-- R186: GET_INFO names the part 4B24H, revision 10H, and its table sizes. -/
theorem test_get_info : answers .getInfo State.reset .ok ([0x24#8, 0x4B#8, 0x10#8, 0#8, 0#8, 0#8, 0#8, 0#8, 0#8, 0#8]
    ++ u16 24 ++ u16 128 ++ u16 768 ++ u16 64 ++ u16 24 ++ u16 219 ++ u16 16 ++ u16 512) = true := by decide +kernel

/-- R181: with nothing DIRTY, SAVE_NEXT answers with the kind NONE. -/
theorem test_save_next_none : answers .saveNext State.reset .ok [0xFF#8, 0#8, 0#8, 0#8, 0#8, 0#8] = true := by decide +kernel

/-- R92: a T1 written above T2 is brought below it. -/
theorem test_threshold_stays_below : answers (.setSettingSoil 8#8 6000#16) State.reset .ok (u16 4999) = true := by decide +kernel

/-- R177: RESET_N drops what the part held. -/
theorem test_reset_n : after .resetNAsserted (one oven) (fun t => decide (t.site.env.held = true ∧ t.site.recs.oven 6 = none)) = true := by
  decide +kernel

/-- R139: STOP1 holds the ovens of zone 1 HARD. -/
theorem test_stop_line : after (.stopAsserted 1) (one oven) (fun t =>
    decide (t.site.recs.strength 6 = .hard ∧ t.site.recs.obm.halts = [⟨1, 3⟩])) = true := by decide +kernel

/-- R116, R139: STOP1 revokes the grants of zone 1 in the RESTORE phase too, and marks their OVEN indices. -/
theorem test_stop_line_revokes_before_go_live :
    let b : Obligation :=
      { level := .light, raisedAt := 0#32, deadline := 0#32, state := .granted, overdue := false, locked := false, aborts := 0
        grant := some { level := .light, issuedAt := 0#32, sequence := 1 } }
    let s : State := State.reset.withRecs (State.reset.site.recs.putOven 6 (some { oven with obligation := some b }))
    after (.stopAsserted 1) s (fun t => decide (t.site.recs.obligation 6 = some { b with state := .due, grant := none }
      ∧ t.site.recs.persist.get (.oven 6) = true ∧ t.site.recs.persist.count = 1 ∧ t.site.recs.tickets = s.site.recs.tickets)) = true
    ∧ after (.stopAsserted 2) s (fun t => decide (t.site.recs = { s.site.recs with latches := s.site.recs.latches.set 2 true })) = true := by
  decide +kernel

/-- R56: a STEAM stage takes humidity 100 and a setpoint of 500 is brought to 300. -/
theorem test_stage_in_range : (readStage ⟨0x01#8, 9#8, 7#8, 0#8, 500#16, 0#16⟩).map (fun t => (t.setpoint, t.fan, t.humidity, t.stop))
    = some (300, 5, 100, .time 1) := by decide +kernel

/-- R27: a round does not start before its interval has elapsed since the start of the last. -/
theorem test_round_waits_for_its_interval :
    let s (tick : Nat) : State :=
      { live with site := { env := { live.site.env with tick := tick }
                            recs := live.site.recs.modObm fun b => { b with startTick := some 1000, interval := 200 } } }
    after .roundStart (s 1199) (fun t => decide (t = s 1199)) = true
      ∧ after .roundStart (s 1200) (fun t => decide (t.site.recs.obm.round = 1 ∧ t.site.recs.obm.startTick = some 1200)) = true := by
  decide +kernel

/-- R50: a clock that SET_CLOCK has set to a boundary has not reached it; the minute before it has it next. -/
theorem test_boundary_is_reached_by_a_minute_expiry_only :
    let s (m : Minute) : State := { live with site := { live.site with env := { live.site.env with
      clockValid := true, minute := m, overridden := true, schedule := [⟨150, .closed⟩] } } }
    after .scheduleBoundary (s 150#32) (fun t => decide (t = s 150#32)) = true
      ∧ after .scheduleBoundary (s 149#32) (fun t => decide (t.site.env.mode = .closed ∧ t.site.env.minute = 150#32)) = true := by
  decide +kernel

/-- R43: the minute of day of minute 4,294,967,295 with offset 1,439 is 1,438, the sum being an unsigned 32-bit one. -/
theorem test_minute_of_day_across_the_wrap : ({ Env.reset with minute := 0xFFFFFFFF#32, offset := 1439 } : Env).minuteOfDay = 1438 := by
  decide +kernel

/-- R43, R53: ten minutes before the 32-bit wrap the minute of day runs from 250 to 255 and then from 0, so 100 comes before 300. -/
theorem test_next_boundary_across_the_wrap :
    let e (m : Minute) : Env := { Env.reset with
      clockValid := true, minute := m, schedule := [⟨100, .prep⟩, ⟨253, .closed⟩, ⟨300, .trading⟩] }
    (e 4294967290#32).nextBoundary = some 253 ∧ (e 4294967293#32).nextBoundary = some 100 ∧ (e 250#32).nextBoundary = some 253
      ∧ (e 253#32).nextBoundary = some 300 ∧ (e 1439#32).nextBoundary = some 100 := by decide +kernel

/-- R103: the score, the level that it demands, and the mark that no evaluation was made. -/
theorem test_adjust_soil_response :
    answers (.adjustSoil 6#8 5000#16) (one { oven with lifecycle := .loading }) .ok [0x88#8, 0x13#8, 0#8, 0#8, 1#8] = true
      ∧ answers (.adjustSoil 6#8 5000#16) (one oven) .ok [0x88#8, 0x13#8, 1#8, 1#8, 0#8] = true := by decide +kernel

/-- R119: the third abort returns the obligation to DUE with no abort counted and opens a HYGIENE ticket at DEGRADED. -/
theorem test_third_abort :
    let b : Obligation := { level := .heavy, raisedAt := 0#32, deadline := 99#32, state := .running, overdue := false, locked := false
                            aborts := 2, grant := none }
    after (.thirdAbort 6) (one { oven with obligation := some b, activity := .cleaning }) (fun t =>
      (t.site.recs.oven 6).any (fun o => decide (o.activity = .idle) && o.obligation.any fun d => decide (d.aborts = 0 ∧ d.deadline = 99#32
        ∧ d.state ≠ .running))
      && (t.site.recs.ticket 0).any fun x => decide (x.cls.val = 29 ∧ x.severity = .degraded)) = true := by decide +kernel

/-- A restored LOADING record that has all its target wants goes into service in step 2 of GO_LIVE and to REJOINING in step 6
(R8, R75, R185). -/
theorem test_go_live_loading_test :
    after .goLive (State.reset.withRecs (State.reset.site.recs.putOven 6 (some { oven with lifecycle := .loading, served := false })))
      (fun t => t.site.recs.latched.getLsbD Cause.commissionDone.number
        && t.site.recs.ovenIs 6 fun o => o.served && decide (o.lifecycle = .rejoining)) = true := by decide +kernel

/-- R185, R187: with nothing DIRTY, GO_LIVE answers with the dirty count 0 in one byte. -/
theorem test_go_live_response : answers .goLive State.reset .ok [0#8] = true := by decide +kernel

/-- R45, R183: a yes/no value of 2 in a SETTINGS image is yes and sets the clamped mark. -/
theorem test_settings_image_flag : (profileAt [1#8, 2#8, 1#8, 200#8, 0#8, 1#8, 0#8] 0).value.activate = true
    ∧ (profileAt [1#8, 2#8, 1#8, 200#8, 0#8, 1#8, 0#8] 0).clamped = true := by decide +kernel

/-- Log 2: a tick on an empty queue raises the tick. -/
theorem test_tick : (match step State.reset with | .next t => t.site.env.tick | _ => 0) = 1 := by decide +kernel

/-! ## Witnesses: a state and operands that meet the hypotheses of each statement, clause by clause -/

/-- A state whose port holds a request, and one that holds a response. -/
def inBusy (c : Instr) : State := { live with port := { Port.reset with state := .busy, request := some c } }
def inReady : State := { live with port := { Port.reset with state := .ready, response := some ⟨0x70#8, .ok, [1#8, 2#8]⟩ } }
/-- A part that RESET_N holds. -/
def held : State := { State.reset with site := { State.reset.site with env := { Env.reset with held := true } } }

theorem witness_StepRunsFrontCommand : ({ live with pending := [.getInfo, .saveNext] } : State).pending = .getInfo :: [.saveNext] := rfl

theorem witness_EmptyQueueStepTakesBufferedRequestOrTicks :
    let s (f : Nat) : State := { State.reset with site := { State.reset.site with env := { Env.reset with fraction := f } } }
    ((inBusy .getInfo).pending = [] ∧ (inBusy .getInfo).port.state = .busy ∧ (inBusy .getInfo).port.request = some .getInfo)
    ∧ (held.pending = [] ∧ held.port.state ≠ .busy ∧ held.site.env.held = true)
    ∧ (∀ f ∈ [0, 59998], (s f).pending = [] ∧ (s f).port.state ≠ .busy ∧ (s f).site.env.held = false
        ∧ (s f).site.env.phase = .restore ∧ (s f).site.env.fraction < 59999)
    ∧ ((s 59999).pending = [] ∧ (s 59999).port.state ≠ .busy ∧ (s 59999).site.env.held = false
        ∧ (s 59999).site.env.phase = .restore ∧ ¬(s 59999).site.env.fraction < 59999) := by decide +kernel

/-- The LIVE part at a minute fraction, with the activation timer of slot 6 and the bus master as given. -/
def timed (f : Nat) (t : Option Nat) (p : BusPhase) : State :=
  let m : Member := { newMember 6 with state := .activating, timer := t }
  let c : Campaign :=
    { id := 43, model := 310, firmware := { major := 4#8, minor := 3#8, build := 7#16 }, length := 2500, crc := 0#32, waveSize := 2
      state := .running, members := [m], phase := .none, cursor := 0, wanted := [], window := [], repaired := [] }
  let s := holding fun r => (({ r with campaign := some c } : Recs).putOven 6 (some oven)).modObm fun b =>
    { b with phase := p, position := some 6, startTick := some 0, interval := 1 }
  { s with site := { s.site with env := { s.site.env with fraction := f } } }

/-- A millisecond of each kind in the LIVE phase: with a timer that runs out or runs on, at the end of a minute, in a turn, in the
DATA step, and between two rounds with the interval elapsed. -/
theorem witness_EmptyQueueStepTakesBufferedRequestOrTicks_live :
    (∀ f ∈ [0, 59999], ∀ t ∈ [none, some 1, some 2], ∀ p ∈ [BusPhase.waiting, .turn, .data, .listening],
      (timed f t p).pending = [] ∧ (timed f t p).port.state ≠ .busy ∧ (timed f t p).site.env.held = false
        ∧ (timed f t p).site.env.phase = .live ∧ (timed f t p).site.recs.obm.freed = false)
    ∧ (timed 0 (some 1) .waiting).site.recs.timersRun.timedOut = [6] ∧ (timed 0 (some 2) .waiting).site.recs.timersRun.timedOut = [] := by
  decide +kernel

/-- R159, R162: the millisecond that takes a timer to 0 ends the activation with TIMEOUT; one that does not leaves it ACTIVATING. -/
theorem test_tick_runs_the_activation_timer :
    let fails (t : Nat) : Option (Option FailReason × Option Nat) := match step (timed 0 (some t) .listening) with
      | .next s => (s.site.recs.member 6).map fun m => (m.fail, m.timer)
      | _ => none
    fails 1 = some (some .timeout, none) ∧ fails 2 = some (none, some 1) := by decide +kernel

theorem witness_FramesAreReadBack : ([] : List Byte).length ≤ 512 ∧ (List.replicate 512 0#8).length ≤ 512
    ∧ (List.replicate 255 0#8).length ≤ 255 := by decide +kernel

theorem witness_RequestWriteAndResponseReadMoveThePort :
    let f := frameOf 0x70#8 []
    (isRequestWrite f = true ∧ live.site.env.held = false ∧ live.port.state = .idle ∧ (checkFrame f).toOption = some .getInfo)
    ∧ (isRequestWrite [0x70#8, 0#8] = true ∧ turnedAway [0x70#8, 0#8] = some .frameError)
    ∧ (isRequestWrite f = true ∧ inReady.site.env.held = false ∧ inReady.port.state ≠ .idle ∧ (inBusy .start).port.state ≠ .idle)
    ∧ (1 ≤ 8 ∧ inReady.port.state = .ready ∧ inReady.port.response = some ⟨0x70#8, .ok, [1#8, 2#8]⟩ ∧ 6 + [1#8, 2#8].length ≤ 8)
    ∧ (1 ≤ 7 ∧ 7 < 6 + [1#8, 2#8].length) ∧ (1 ≤ 1 ∧ live.port.state ≠ .ready) := by decide +kernel

theorem witness_AttentionAndStatusShowTheCauses : State.reset.takes .readAttention = true ∧ live.takes (.setAttentionEnable 0xFFFF#16) = true
    ∧ (inBusy .readAttention).takes .readAttention = true := by decide +kernel

theorem witness_LiveRequestsAreRefusedInRestore : isLiveOnly .start = true ∧ State.reset.site.env.phase = .restore
    ∧ State.reset.takes .start = true := by decide +kernel

theorem witness_PowerOnResetPinAndFullResetGivePowerOnValues : held.site.env.held = true ∧ live.takes .resetFull = true := by decide +kernel


/-- The lines and latches of every zone at one level. -/
def stops (lines latches : Bool) : State :=
  { (one { oven with zone := 3 }) with site :=
    { env := { live.site.env with lines := Vector.replicate 4 lines }
      recs := { (one { oven with zone := 3 }).site.recs with latches := Vector.replicate 4 latches } } }

theorem witness_StopLinesAndReleaseMoveTheLatches : ∀ z ∈ ([0, 3] : List (Fin 4)),
    (live.site.env.held = false ∧ (stops false false).site.env.lines[z] = false ∧ (stops false false).site.recs.latches[z] = false)
    ∧ ((stops false true).site.env.lines[z] = false ∧ (stops false true).site.recs.latches[z] = true)
    ∧ (stops false false).site.recs.oven 6 = some { oven with zone := 3 }
    ∧ (let g : Obligation :=
        { level := .light, raisedAt := 0#32, deadline := 0#32, state := .granted, overdue := false, locked := false, aborts := 0
          grant := some { level := .light, issuedAt := 0#32, sequence := 1 } }
       let o : Oven := { oven with zone := z, obligation := some g, grantTelegram := .sent }
       ∀ p ∈ [Phase.restore, .live],
        let s : State := { one o with site := { (one o).site with env := { (one o).site.env with phase := p } } }
        s.site.env.held = false ∧ s.site.env.lines[z] = false ∧ s.site.recs.latches[z] = false ∧ s.site.recs.oven 6 = some o
          ∧ s.site.recs.oblIs 6 .granted = true ∧ s.site.env.phase = p)
    ∧ (let s : State := { stops false true with site := { (stops false true).site with
          env := { (stops false true).site.env with phase := .restore } } }
       s.takes (.releaseZone (BitVec.ofNat 8 z.val)) = true ∧ s.site.env.phase = .restore)
    ∧ ((stops true true).takes (.releaseZone (BitVec.ofNat 8 z.val)) = true ∧ (stops true true).site.env.lines[z] = true)
    ∧ (stops false false).takes (.releaseZone (BitVec.ofNat 8 z.val)) = true
    ∧ (stops false true).takes (.releaseZone (BitVec.ofNat 8 z.val)) = true := by decide +kernel

theorem witness_ReadRequestsChangeNothing : isRead .readStops = true ∧ ∃ t, exec .readStops live = .next t := ⟨rfl, _, rfl⟩

/-- A published recipe of one stage. -/
def dish : Recipe :=
  { id := 212, version := 3, name := [], factor := 6, mask := 0xFF#8, rank := 0, state := .published
    stages := [{ mode := .steam, setpoint := 100, humidity := 100, fan := 3, stop := .time 600 }] }

/-- A campaign of chunks 0..19 with the oven of slot 6 as a member. -/
def campaignIn (x : CampaignState) (m : Member) : Campaign :=
  { id := 43, model := 310, firmware := { major := 4#8, minor := 3#8, build := 7#16 }, length := 2500, crc := 0#32, waveSize := 2
    state := x, members := [m], phase := .none, cursor := 0, wanted := [1], window := [{ index := 0, data := List.replicate 128 0#8 }]
    repaired := [] }

/-- The oven of slot 6 as a member, with a recipe, a ticket and a campaign beside it. -/
def site6 (o : Oven) (c : Campaign) : State :=
  holding fun r => (({ r with campaign := some c }.putOven 6 (some o)).putRecipe 127 (some dish)).putTicket 63 (some stopTicket)

def member6 : Member := newMember 6

/-- A POLL of slot 6 whose reply the part listens for. -/
def pollOf : Exchange := { work := .poll, kind := .poll, address := 7#8, payload := [], attempts := 1, carried := .none }

/-- The part with the oven, recipe, ticket and campaign of `site6`, polling that oven. -/
def polled (o : Oven) (c : Campaign) : State :=
  (site6 o c).withRecs ((site6 o c).site.recs.modObm fun b =>
    { b with phase := .listening, position := some 6, exchanges := 1, exchange := some pollOf })

/-- A reply of that oven brings an event, whatever the record and the campaign. -/
theorem polled_brings (o : Oven) (c : Campaign) (tag : Bool) (p : List Byte) (ht : o.tag = none) (hp : p.length ≤ 249) :
    (polled o c).brings 6 o pollOf [0#8, 0#8, 0#8, 4#8] tag p :=
  ⟨⟨⟨rfl, rfl, rfl, rfl, rfl, rfl⟩, rfl, rfl, by simp [ht], hp⟩, rfl⟩

/-- The part in a phase of the exchange that has made `n` attempts of a work with the oven of slot 6. -/
def exchangeOf (w : Work) (n : Nat) : Exchange :=
  { work := w, kind := w.kind, address := w.address 6, payload := [], attempts := n, carried := .none }
def sent (o : Oven) (c : Campaign) (w : Work) (n : Nat) (p : BusPhase) : State :=
  (site6 o c).withRecs ((site6 o c).site.recs.modObm fun b =>
    { b with phase := p, position := some 6, exchanges := 1, exchange := some (exchangeOf w n) })
theorem sent_exchanging (o : Oven) (c : Campaign) (w : Work) (n : Nat) (p : BusPhase) :
    (sent o c w n p).exchanging p 6 o (exchangeOf w n) := ⟨rfl, rfl, rfl, rfl, rfl, rfl⟩
theorem sent_gaveUp (o : Oven) (c : Campaign) (w : Work) : (sent o c w 3 .attemptFailed).gaveUp 6 o (exchangeOf w 3) :=
  ⟨sent_exchanging o c w 3 .attemptFailed, Nat.le_refl 3⟩

theorem witness_BusResetKeepsSettingsAndRestartsTheBus :
    let c (m : Member) := campaignIn .running m
    (live.takes .resetBus = true ∧ State.reset.takes .resetBus = true ∧ live.site.recs.oven 6 = none)
    ∧ (∀ l ∈ [Lifecycle.inService, .loading, .profiling, .rejoining, .addressing, .failed, .retiring],
        (one { oven with lifecycle := l, step := some .release }).takes .resetBus = true
          ∧ (one { oven with lifecycle := l, step := some .release }).site.recs.oven 6 = some { oven with lifecycle := l, step := some .release })
    ∧ ∀ x ∈ [none, some Owed.activate], let m : Member := { member6 with state := .activating, owed := x }
        (site6 oven (c m)).takes .resetBus = true ∧ (site6 oven (c m)).site.recs.campaign = some (c m) ∧ (c m).member 6 = some m := by
  decide +kernel
/-- A BUS reset that returns the member of slot 6 to READY examines those of slots 5, 7 and 8 (R136, R149); without that return none is
examined. The first turn is that of the lowest slot that is not FAILED. -/
theorem witness_BusResetKeepsSettingsAndRestartsTheBus_members :
    let m (x : Bool) : Member := { member6 with state := .activating, owed := some .activate, onLine := x }
    let c (x : Bool) : Campaign := { campaignIn .running (m x) with members :=
      [{ newMember 5 with state := .transfer, wave := true, gaps := [1] }, m x, { newMember 7 with state := .verify }, newMember 8] }
    let s (x : Bool) : State := (site6 { oven with updateHold := true } (c x)).withRecs
      ((((site6 { oven with updateHold := true } (c x)).site.recs.putTicket 63 none).putOven 5 (some { oven with serial := 2#48, lifecycle := .failed })).putOven 7
        (some { oven with serial := 3#48, firmware := (c x).firmware }))
    let states (t : State) : Option (List (MemberState × Option DeferReason × List Nat)) :=
      t.site.recs.campaign.map fun c => c.members.map fun n => (n.state, n.defer, n.gaps)
    (s true).takes .resetBus = true ∧ (s false).takes .resetBus = true ∧ (s true).site.recs.oven 8 = none
    ∧ after .resetBus (s false) (fun t => decide (states t = some [(.deferred, some .notInService, []), (.ready, none, []),
        (.done, some .alreadyCurrent, []), (.deferred, some .notInService, [])]) && decide (t.site.recs.obm.position = some 6)) = true
    ∧ after .resetBus (s true) (fun t => decide (states t = some [(.queued, none, []), (.activating, none, []), (.queued, none, []),
        (.queued, none, [])])) = true := by decide +kernel

theorem witness_ReadRequestsAnswerTheirFields :
    let s := site6 oven (campaignIn .running member6)
    let r := s.site.recs
    (s.takes .readDiscovery = true ∧ s.takes (.readOven 6#8) = true ∧ r.oven 6 = some oven
      ∧ (u16 (r.ovenBody 6 oven).length ++ r.ovenBody 6 oven).length ≤ 512 ∧ r.oven 23 = none ∧ s.takes (.readOven 23#8) = true)
    ∧ ((4095#16).toNat ≤ 4095 ∧ (212#16).toNat ≤ 4095
      ∧ ((r.recordsByPair fun _ => true).filter fun q => !pairBefore q.2.pair ((212#16).toNat, (3#8).toNat)) = (127, dish) :: []
      ∧ s.takes (.recipeRead 212#16 3#8) = true
      ∧ (r.listed 127 dish ++ counted (dish.stages.map Stage.bytes)).length + 4 ≤ 512)
    ∧ ((stateFilter (0#8).toNat).isSome = true ∧ (stateFilter (3#8).toNat).isSome = true ∧ s.takes (.libraryList 0#16 0#8 3#8) = true)
    ∧ ((ticketFilter (0#8).toNat 23).isSome = true ∧ (ticketFilter (2#8).toNat 0).isSome = true
      ∧ s.takes (.listTickets 1#16 0#8 23#8) = true)
    ∧ (live.site.recs.campaign = none ∧ r.campaign = some (campaignIn .running member6)
      ∧ (campaignIn .running member6).member 6 = some member6 ∧ (r.campaignBody (campaignIn .running member6)).length + 2 ≤ 512)
    ∧ s.site.env.clean.image.length + 40 ≤ 512 := by decide +kernel

theorem witness_FleetRequestsWriteListsAndRecords :
    let s := holding fun r => { r with discovered := [seen] }
    let full := holding fun r => { r with discovered := [seen], ignored := List.replicate 8 2#48 }
    let near := holding fun r => { r with discovered := [seen], ignored := List.replicate 7 2#48 }
    (∀ i ∈ ([0, 23] : List (Fin 24)), s.takesLive (.admitOven seen.serial (BitVec.ofNat 8 i.val) 255#8 255#8) = true
        ∧ s.site.recs.oven i = none)
    ∧ s.site.recs.discovered.find? (fun x => decide (x.serial = seen.serial)) = some seen
    ∧ (∀ slot ∈ [0#8, 23#8, 24#8, 255#8], s.takesLive (.admitOven seen.serial slot 0#8 0#8) = true
        ∧ s.takesLive (.admitOven 9#48 slot 0#8 0#8) = true)
    ∧ (seen ∈ s.site.recs.discovered ∧ (∀ d ∈ s.site.recs.discovered, d.serial ≠ 9#48) ∧ 24 ≤ (24#8).toNat ∧ (23#8).toNat ≤ 23)
    ∧ (let used := holding fun r => ({ r with discovered := [seen] } : Recs).putOven 6 (some oven)
       used.takesLive (.admitOven seen.serial 6#8 0#8 0#8) = true ∧ (6#8).toNat = (6 : Fin 24).val ∧ seen ∈ used.site.recs.discovered
         ∧ used.site.recs.oven 6 = some oven)
    ∧ (near.takesLive (.reject seen.serial) = true ∧ seen ∈ near.site.recs.discovered ∧ near.site.recs.ignored.length < 8)
    ∧ (full.takesLive (.reject seen.serial) = true ∧ seen ∈ full.site.recs.discovered ∧ 8 ≤ full.site.recs.ignored.length)
    ∧ (live.takesLive (.reject seen.serial) = true ∧ live.site.recs.discovered = []) ∧ live.takesLive .clearIgnored = true
    ∧ ((one { oven with lifecycle := .failed }).takesLive (.retry 6#8) = true ∧ (one oven).takesLive (.retry 6#8) = true
      ∧ oven.lifecycle ≠ .failed ∧ (one oven).takesLive (.resync 6#8) = true ∧ oven.lifecycle = .inService
      ∧ (one oven).takesLive (.clearRefused 6#8) = true ∧ oven.refused = []
      ∧ (one { oven with refused := [(212, 3)] }).takesLive (.clearRefused 6#8) = true
      ∧ (one { oven with refused := [(212, 3)] }).site.recs.oven 6 = some { oven with refused := [(212, 3)] }) := by decide +kernel

theorem witness_HoldAndPlacementRequestsWriteTheRecord :
    let s := site6 oven (campaignIn .running { member6 with state := .activating })
    (one oven).site.recs.oven 6 = some oven ∧ (one oven).takesLive (.holdOven 6#8 1#8) = true
    ∧ (one oven).takesLive (.holdOven 6#8 255#8) = true ∧ (one oven).takesLive (.releaseOven 6#8) = true
    ∧ (one oven).takesLive (.clearUntracked 6#8) = true
    ∧ (s.takesLive (.setOven 6#8 1#8 0#8 0#8) = true ∧ s.site.recs.oven 6 = some oven ∧ (1#8).getLsbD 0 = true
      ∧ s.site.recs.activating 6 = true)
    ∧ ((one oven).takesLive (.setOven 6#8 0xFC#8 0#8 0#8) = true ∧ (0xFC#8).getLsbD 0 = false ∧ (0xFC#8).getLsbD 1 = false)
    ∧ ((one oven).takesLive (.setOven 6#8 3#8 255#8 255#8) = true ∧ (3#8).getLsbD 0 = true ∧ (one oven).site.recs.activating 6 = false)
    := by decide +kernel

theorem witness_HoldChangesAndTargetsHaveTheirFrame :
    ∀ i : Fin 24, (one oven).site.recs.reasons i = ((one oven).site.recs.latch .sync).reasons i := by decide +kernel

theorem witness_HostHoldHoldsTheOven : (one oven).site.recs.oven 6 = some oven
    ∧ (one oven).takesLive (.holdOven (BitVec.ofNat 8 (6 : Fin 24).val) 1#8) = true
    ∧ (one oven).takesLive (.holdOven (BitVec.ofNat 8 (6 : Fin 24).val) 2#8) = true := by decide +kernel

theorem witness_RetireFreesOrReleases :
    (one oven).takesLive (.retire 6#8 1#8) = true ∧ (one oven).site.recs.oven 6 = some oven ∧ oven.lifecycle ≠ .retiring
    ∧ (one oven).takesLive (.retire 6#8 0#8) = true ∧ oven.lifecycle = .inService ∧ oven.activity = .idle ∧ oven.unreachable = false
    ∧ (one oven).site.recs.activating 6 = false
    ∧ (one { oven with activity := .cooking }).takesLive (.retire 6#8 0#8) = true
    ∧ (one { oven with activity := .cooking }).site.recs.oven 6 = some { oven with activity := .cooking }
    ∧ (live.takesLive (.retire 6#8 0#8) = true ∧ live.site.recs.oven 6 = none) := by decide +kernel

theorem witness_SettingWritesClampStoreAndBringTheirChecks_soil : ∀ n ∈ [0, 65535], let v := BitVec.ofNat 16 n
    live.takes (.setSettingDiscovery v) = true
    ∧ (∀ k ∈ [1, 6, 7, 12, 14], let code := BitVec.ofNat 8 k
      live.takes (.setSettingSoil code v) = true
      ∧ (live.site.env.soil.write code.toNat v.toNat).isSome = true ∧ (code.toNat ≤ 6 ∨ code = 7#8 ∨ 12 ≤ code.toNat))
    ∧ (live.takes (.setSettingSoil 15#8 v) = true ∧ live.site.env.soil.write (15#8).toNat v.toNat = none)
    ∧ (∀ k ∈ [8, 11], let code := BitVec.ofNat 8 k
      live.site.env.phase = .live ∧ 8 ≤ code.toNat ∧ code.toNat ≤ 11
      ∧ live.takes (.setSettingSoil code v) = true ∧ (live.site.env.soil.write code.toNat v.toNat).isSome = true) := by decide +kernel
theorem witness_SettingWritesClampStoreAndBringTheirChecks_cleaning : ∀ n ∈ [0, 65535], let v := BitVec.ofNat 16 n
    (∀ k ∈ [15, 19], let code := BitVec.ofNat 8 k
      live.takes (.setSettingCleaning code v) = true
      ∧ (live.site.env.clean.write code.toNat v.toNat).isSome = true ∧ code ≠ 0x14#8)
    ∧ (live.takes (.setSettingCleaning 0x15#8 v) = true ∧ live.site.env.clean.write (0x15#8).toNat v.toNat = none)
    ∧ live.takes (.setSettingCleaning 0x14#8 v) = true := by decide +kernel
theorem witness_SettingWritesClampStoreAndBringTheirChecks_modes : ∀ n ∈ [0, 65535], let v := BitVec.ofNat 16 n
    (∀ k ∈ [2, 5], let field := BitVec.ofNat 8 k
      live.takes (.setProfile (BitVec.ofNat 8 Mode.trading.code) field v) = true
      ∧ ((live.site.env.profiles.get .trading).write field.toNat v.toNat).isSome = true ∧ field ≠ 0#8 ∧ field ≠ 1#8)
    ∧ (live.takes (.setProfile (BitVec.ofNat 8 Mode.closed.code) 0#8 v) = true ∧ Mode.closed ≠ live.site.env.mode
      ∧ ((live.site.env.profiles.get .closed).write (0#8).toNat v.toNat).isSome = true)
    ∧ live.takes (.setProfile (BitVec.ofNat 8 Mode.prep.code) 6#8 v) = true
    ∧ (live.takes (.setProfile (BitVec.ofNat 8 Mode.prep.code) 7#8 v) = true ∧ 7 ≤ (7#8).toNat)
    ∧ (Mode.trading = live.site.env.mode ∧ live.takes (.setProfile (BitVec.ofNat 8 Mode.trading.code) 0#8 v) = true
      ∧ live.takes (.setProfile (BitVec.ofNat 8 Mode.trading.code) 1#8 v) = true)
    ∧ live.takes (.setRoute (BitVec.ofNat 8 (31 : Fin 32).val) 255#8) = true
    ∧ live.takes (.setReserve (BitVec.ofNat 8 (3 : Fin 4).val) 0#8) = true
    ∧ live.takes (.setArbiter (BitVec.ofNat 8 ArbiterMode.fixed.code) 255#8) = true := by decide +kernel
theorem witness_SettingWritesClampStoreAndBringTheirChecks_restore : ∀ n ∈ [0, 65535], let v := BitVec.ofNat 16 n
    let s := State.reset
    s.site.env.phase = .restore ∧ s.takes (.setReserve (BitVec.ofNat 8 (3 : Fin 4).val) 0#8) = true
    ∧ (∀ k ∈ [0, 1, 5], let field := BitVec.ofNat 8 k
      s.takes (.setProfile (BitVec.ofNat 8 Mode.trading.code) field v) = true
      ∧ ((s.site.env.profiles.get .trading).write field.toNat v.toNat).isSome = true)
    ∧ (∀ k ∈ [1, 8, 11, 14], let code := BitVec.ofNat 8 k
      code ≠ 7#8 ∧ s.takes (.setSettingSoil code v) = true ∧ (s.site.env.soil.write code.toNat v.toNat).isSome = true)
    ∧ (∀ k ∈ [15, 20], let code := BitVec.ofNat 8 k
      s.takes (.setSettingCleaning code v) = true ∧ (s.site.env.clean.write code.toNat v.toNat).isSome = true)
    ∧ s.takes (.setArbiter (BitVec.ofNat 8 ArbiterMode.rotate.code) 255#8) = true := by decide +kernel

theorem witness_SoilSettingWritesKeepTheThresholdsAscending : SoilSettings.reset.inRange = true ∧ 65535 ≤ 65535
    ∧ (SoilSettings.reset.write 8 65535).isSome = true := by decide +kernel

theorem witness_ClockAndModeRequestsSetTheEnvironment :
    let s : State := { live with site := { live.site with env := { live.site.env with overridden := true } } }
    live.takes (.setClock 0xFFFFFFFF#32 1440#16) = true ∧ live.takes (.setMode (BitVec.ofNat 8 Mode.trading.code)) = true
    ∧ Mode.trading = live.site.env.mode ∧ Mode.closed ≠ live.site.env.mode ∧ (3 ≤ (3#8).toNat ∧ live.takes (.setMode 3#8) = true)
    ∧ (live.takes .clearOverride = true ∧ live.site.env.overridden = false)
    ∧ (s.takes .clearOverride = true ∧ s.site.env.overridden = true) := by decide +kernel

/-- The LIVE part with a schedule. -/
def scheduled (l : List SchedEntry) : State := { live with site := { live.site with env := { live.site.env with schedule := l } } }
/-- A full list, whose first minute is 0 and whose last is 1439. -/
def eight : List SchedEntry := [⟨0, .prep⟩, ⟨1, .prep⟩, ⟨2, .prep⟩, ⟨3, .prep⟩, ⟨4, .prep⟩, ⟨5, .prep⟩, ⟨6, .prep⟩, ⟨1439, .closed⟩]

theorem witness_ScheduleRequestsEditTheList :
    scheduleOk (scheduled eight).site.env.schedule = true
    ∧ ((scheduled eight).takes (.scheduleSet 65535#16 (BitVec.ofNat 8 Mode.closed.code)) = true
      ∧ ∃ x ∈ eight, x.minute = min 1439 (65535#16).toNat)
    ∧ ((scheduled dayParts).takes (.scheduleSet 0#16 (BitVec.ofNat 8 Mode.closed.code)) = true ∧ scheduleOk dayParts = true ∧ dayParts.length < 8)
    ∧ ((scheduled eight).takes (.scheduleSet 7#16 (BitVec.ofNat 8 Mode.closed.code)) = true ∧ (∀ x ∈ eight, x.minute ≠ min 1439 (7#16).toNat)
      ∧ eight.length = 8)
    ∧ ((scheduled eight).takes (.scheduleRemove 0#16) = true ∧ ∃ x ∈ eight, x.minute = (0#16).toNat)
    ∧ ((scheduled eight).takes (.scheduleRemove 1440#16) = true ∧ ∀ x ∈ eight, x.minute ≠ (1440#16).toNat)
    ∧ (scheduled eight).takes .scheduleClear = true := by decide +kernel

theorem witness_ScheduledModeIsTheGoverningEntrys :
    scheduleOk dayParts = true
    ∧ (⟨120, .closed⟩ ∈ dayParts ∧ 120 ≤ 269 ∧ ∀ y ∈ dayParts, y.minute ≤ 269 → y.minute ≤ 120)
    ∧ (⟨360, .trading⟩ ∈ dayParts ∧ (∀ y ∈ dayParts, 119 < y.minute) ∧ ∀ y ∈ dayParts, y.minute ≤ 360)
    ∧ scheduleOk [⟨1439, .prep⟩] = true := by decide +kernel

theorem witness_MinuteExpiryAdvancesTheClock :
    let e : Env := { live.site.env with clockValid := true, schedule := eight, minute := 1438#32 }
    live.site.env.held = false ∧ State.reset.site.env.held = false ∧ live.site.env.clockValid = false
    ∧ (e.held = false ∧ e.clockValid = true ∧ ∃ x ∈ e.schedule, x.minute = (e.minute + 1 + BitVec.ofNat 32 e.offset).toNat % 1440) := by
  decide +kernel

/-- A stage record that is in range. -/
def rawStage : RawStage := ⟨1#8, 3#8, 100#8, 0#8, 100#16, 600#16⟩

theorem witness_RecipeWriteStoresADraft :
    let c (v : Byte) (l : List RawStage) : Instr := .recipeWrite 4095#16 v 255#8 255#8 255#8 255#8 (List.replicate 20 65#8) l
    let drafted := holding fun r => r.putRecipe 127 (some { dish with id := 4095, state := .draft })
    let published := holding fun r => r.putRecipe 127 (some { dish with id := 4095 })
    (live.takesLive (c 1#8 [rawStage]) = true ∧ (4095#16 : BitVec 16) ≠ 0#16 ∧ (4095#16).toNat ≤ 4095 ∧ (1#8 : Byte) ≠ 0#8)
    ∧ ((readStages [rawStage]).isSome = true ∧ (readStages (List.replicate 12 rawStage)).isSome = true
      ∧ (∀ j : Fin 128, live.site.recs.recipe j = none) ∧ live.site.recs.freeLibrary = some 0 ∧ 12 ≤ live.site.recs.poolFree)
    ∧ (drafted.takesLive (c 3#8 [rawStage]) = true ∧ drafted.site.recs.findRecipe 4095 3 = some 127
      ∧ drafted.site.recs.recipe 127 = some { dish with id := 4095, state := .draft } ∧ 12 ≤ (drafted.site.recs.putRecipe 127 none).poolFree)
    ∧ (published.takesLive (c 3#8 [rawStage]) = true ∧ published.site.recs.findRecipe 4095 3 = some 127
      ∧ published.site.recs.recipe 127 = some { dish with id := 4095 } ∧ dish.state ≠ .draft)
    ∧ (live.takesLive (c 1#8 []) = true ∧ live.takesLive (c 1#8 (List.replicate 13 rawStage)) = true
      ∧ 12 < (List.replicate 13 rawStage).length) := by decide +kernel

theorem witness_StagesAreBroughtIntoRange : (readStage rawStage).isSome = true ∧ 30 ≤ (30#16).toNat ∧ (300#16).toNat ≤ 300
    ∧ 4 ≤ (4#8).toNat % 16 ∧ 2 ≤ (0x20#8).toNat / 16 := by decide +kernel

theorem witness_RecipeRequestsMoveTheRecord :
    let drafted := holding fun r => r.putRecipe 127 (some { dish with state := .draft })
    let both := drafted.withRecs (drafted.site.recs.putRecipe 0 (some { dish with version := 2 }))
    let cooking := drafted.withRecs (drafted.site.recs.putOven 6 (some { oven with
      cook := some { recipe := 212, version := some 3, startedAt := 0#32, counted := true } }))
    let published := holding fun r => r.putRecipe 127 (some dish)
    let idle (s : State) := s.site.recs.carrierCount 212 3 = 0 ∧ s.site.recs.cookCount 212 3 = 0
    (drafted.site.recs.findRecipe 212 3 = some 127 ∧ drafted.site.recs.recipe 127 = some { dish with state := .draft }
      ∧ drafted.takesLive (.recipeDiscard 212#16 3#8) = true ∧ idle drafted)
    ∧ (cooking.site.recs.findRecipe 212 3 = some 127 ∧ cooking.takesLive (.recipeDiscard 212#16 3#8) = true ∧ ¬idle cooking)
    ∧ (drafted.takesLive (.recipePublish 212#16 3#8) = true ∧ drafted.site.recs.findState 212 .published = none)
    ∧ (both.takesLive (.recipePublish 212#16 3#8) = true ∧ both.site.recs.findRecipe 212 3 = some 127
      ∧ both.site.recs.findState 212 .published = some 0 ∧ both.site.recs.recipe 0 = some { dish with version := 2 })
    ∧ (published.takesLive (.recipeWithdraw 212#16 3#8) = true ∧ published.site.recs.findRecipe 212 3 = some 127
      ∧ published.site.recs.recipe 127 = some dish ∧ dish.state = .published)
    ∧ (published.takesLive (.recipeAssign 212#16 3#8 3#8 0#8 255#8) = true ∧ dish.state ≠ .withdrawn) := by decide +kernel

theorem witness_TargetHoldsTheBestFittingRecipes : oven.capability = some able
    ∧ ((site6 oven (campaignIn .running member6)).site.recs.targetOf oven).pairs = [(212, 3)] := by decide +kernel

theorem witness_BandWeightAndStageGiveTheSoil :
    (30 ≤ 30 ∧ 119 ≤ 119 ∧ 120 ≤ 179 ∧ 179 ≤ 179 ∧ 180 ≤ 229 ∧ 229 ≤ 229 ∧ 230 ≤ 300 ∧ 29 < 30 ∧ 300 < 301 ∧ 4 ≤ 255)
    ∧ (1850 + (100 + min 14400 1500 * 6 * 3 * 6) / 960 ≤ 65535) ∧ (SoilSettings.reset.inRange = true ∧ 15 ≤ 15 ∧ 959 ≤ 959) := by
  decide +kernel

theorem witness_ReportChargesTheHygieneCounter :
    (List.replicate 12 ({ mode := 0, setpoint := 0, seconds := 20000 } : CookStage)).length ≤ 12 ∧ (20 + 3000) / 60 ≤ 50 ∧ 40 < (20 + 3000) / 60 := by
  decide +kernel

theorem witness_EvaluationCreditAndWaiveFollowTheTables :
    SoilSettings.reset.t1 < SoilSettings.reset.t2 ∧ SoilSettings.reset.t2 < SoilSettings.reset.t3
    ∧ SoilSettings.reset.t3 < SoilSettings.reset.t4 ∧ (one oven).site.recs.oven 6 = some oven := by decide +kernel

/-- An obligation at LIGHT in a state. -/
def obliged (x : OblState) (g : Option Grant) : Obligation :=
  { level := .light, raisedAt := 0#32, deadline := 0#32, state := x, overdue := false, locked := false, aborts := 0, grant := g }
def grantAt : Grant := { level := .light, issuedAt := 0#32, sequence := 1 }

theorem witness_SoilAndObligationRequestsWriteTheRecord :
    let s (x : OblState) := one { oven with obligation := some (obliged x none) }
    (one oven).site.recs.oven 6 = some oven ∧ (one oven).takesLive (.adjustSoil 6#8 65535#16) = true
    ∧ ((s .due).takesLive (.extend 6#8 1#32) = true ∧ live.site.env.minute.toNat < (1#32).toNat)
    ∧ ((s .due).takesLive (.extend 6#8 0#32) = true ∧ (0#32).toNat ≤ live.site.env.minute.toNat)
    ∧ ((s .running).takesLive (.waive 6#8) = true ∧ (obliged .running none).state = .running)
    ∧ ((s .granted).takesLive (.waive 6#8) = true ∧ (obliged .granted none).state ≠ .running) := by decide +kernel

theorem witness_DemandsAndGrantsAreMadeAndEndedAsStated :
    let s := one { oven with obligation := some (obliged .granted (some grantAt)), grantTelegram := .sent }
    ((one oven).site.recs.oven 6 = some oven ∧ oven.obligation = none)
    ∧ (s.site.recs.oven 6 = some { oven with obligation := some (obliged .granted (some grantAt)), grantTelegram := .sent })
    ∧ ((obliged .granted (some grantAt)).level.code < Level.intensive.code ∧ Level.light.code ≤ (obliged .granted (some grantAt)).level.code
      ∧ (obliged .granted (some grantAt)).state = .granted) := by decide +kernel

/-- Two obligations in zone 1 and one in zone 2, with the zone reserve of zone 1 at 2. -/
def awaited : Recs :=
  ((((one { oven with obligation := some (obliged .due none) }).site.recs.putOven 7
    (some { oven with obligation := some { obliged .due none with level := .heavy } })).putOven 8
    (some { oven with obligation := some (obliged .due none), zone := 2 })))

theorem witness_ArbiterGrantsTheEligibleWithinLimitAndReserve :
    let e (m : Mode) (n : Nat) : Env := { live.site.env with mode := m, reserves := (Vector.replicate 4 0).set 1 n }
    let t (m : Mode) (n : Nat) := awaited.arbiter (e m n)
    (∀ i ∈ [(6 : Fin 24), 7, 8], awaited.eligible i = true ∧ (t .closed 0).oblIs i .granted = true)
    ∧ (awaited.ahead 7 6 = true ∧ awaited.ahead 6 8 = true ∧ (e .closed 0).phase = .live)
    ∧ (awaited.grantsOut < (t .prep 2).grantsOut ∧ Mode.prep ≠ .closed ∧ (e .prep 2).reserves[(1 : Fin 4)] ≤ awaited.readyCount 1
      ∧ (t .prep 2).oblIs 7 .granted = false ∧ (t .prep 2).oblIs 6 .granted = false ∧ (t .prep 2).oblIs 8 .granted = true)
    ∧ ((t .trading 0).oblIs 7 .granted = true ∧ (t .trading 0).oblIs 6 .granted = false)
    ∧ (∀ i : Fin 24, (live.site.recs.eligible i && (live.site.recs.arbiter live.site.env).oblIs i .granted) = false) := by decide +kernel

theorem witness_LimitCheckBringsGrantsWithinTheRoom :
    let b (n : Nat) : Obligation := obliged .granted (some { grantAt with sequence := n })
    let r := { (one { oven with obligation := some (b 1) }).site.recs.putOven 7 (some { oven with obligation := some (b 2) }) with sequence := 3 }
    live.site.env.phase = .live ∧ live.site.env.profile.limit - r.cleaningCount < r.grantsOut
    ∧ (r.obligation 7 = some (b 2) ∧ r.obligation 6 = some (b 1) ∧ (b 1).state = .granted)
    ∧ (3 + 4294967295 - 2) % 4294967295 < (3 + 4294967295 - 1) % 4294967295 := by decide +kernel

/-- The LIVE part at a site minute with one oven under an obligation in slot 6. -/
def clocked (m : Minute) (o : Oven) : State :=
  { (one o) with site := { (one o).site with env := { live.site.env with minute := m } } }

theorem witness_ObligationEventsTakeTheirEffect :
    let s (m : Minute) (a : Activity) (b : Obligation) := clocked m { oven with obligation := some b, activity := a }
    let meets (m : Minute) (a : Activity) (b : Obligation) : Prop := (s m a b).running = true
      ∧ (s m a b).site.recs.oven 6 = some { oven with obligation := some b, activity := a }
    let due := obliged .due none
    (meets 0#32 .idle due ∧ due.state ≠ .running ∧ due.overdue = false ∧ due.deadline.toNat ≤ (s 0#32 .idle due).site.env.minute.toNat)
    ∧ (meets 120#32 .idle { due with overdue := true } ∧ (s 120#32 .idle due).site.env.clean.lockDelay ≠ 0 ∧ due.locked = false
      ∧ (due.deadline + BitVec.ofNat 32 (s 120#32 .idle due).site.env.clean.lockDelay).toNat ≤ (s 120#32 .idle due).site.env.minute.toNat)
    ∧ (meets 30#32 .idle (obliged .granted (some grantAt)) ∧ (obliged .granted (some grantAt)).grant = some grantAt
      ∧ (grantAt.issuedAt + BitVec.ofNat 32 (s 30#32 .idle due).site.env.clean.window).toNat ≤ (s 30#32 .idle due).site.env.minute.toNat)
    ∧ (meets 0#32 .cleaning { obliged .running none with aborts := 2 } ∧ meets 0#32 .idle { obliged .running none with aborts := 2 }
      ∧ oven.lifecycle ≠ .retiring) := by decide +kernel
theorem witness_ObligationEventsTakeTheirEffect_events :
    let c := campaignIn .running member6
    let with_ (b : Option Obligation) : Oven := { oven with obligation := b, activity := .cleaning, grantTelegram := .sent }
    (∀ b ∈ [none, some (obliged .due none), some (obliged .running none)], (polled (with_ b) c).brings 6 (with_ b) pollOf [0#8, 0#8, 0#8, 4#8] true [3#8])
    ∧ (∀ b ∈ [none, some (obliged .granted (some grantAt)), some { obliged .running none with aborts := 1 },
          some { obliged .running none with aborts := 2 }], ∀ n ∈ [0, 1],
        (polled (with_ b) c).brings 6 (with_ b) pollOf [0#8, 0#8, 0#8, 4#8] true [0#8, BitVec.ofNat 8 n] ∧ (with_ b).lifecycle ≠ .retiring)
    ∧ (numAt [0#8, 0#8] 1 1 = 0 ∧ numAt [0#8, 1#8] 1 1 ≠ 0 ∧ oven.lifecycle = .inService)
    ∧ Env.reset.soil.demanded (Env.reset.soil.credited (levelRead 0) oven.soil) = none
    ∧ Env.reset.soil.demanded (Env.reset.soil.credited (levelRead 0) { oven.soil with score := 65535 }) = some .intensive := by
  refine ⟨fun b _ => polled_brings _ _ _ _ rfl (by simp), fun b _ n _ => ⟨polled_brings _ _ _ _ rfl (by simp), ?_⟩, by decide +kernel⟩
  simp [oven]

theorem witness_TicketRequestsMoveAndRemoveTheTicket :
    let s (x : TicketState) := ticketed { stopTicket with state := x }
    ((57#16 : BitVec 16) ≠ 0#16 ∧ ∀ x ∈ [TicketState.opened, .acked, .dispatched, .resolved],
      (s x).site.recs.ticketOf (57#16).toNat = some 9 ∧ (s x).site.recs.ticket 9 = some { stopTicket with state := x }
        ∧ (s x).takesLive (.ack 57#16) = true ∧ (s x).takesLive (.dispatch 57#16) = true ∧ (s x).takesLive (.resolve 57#16 0#8) = true
        ∧ (s x).takesLive (.resolve 57#16 1#8) = true ∧ (s x).takesLive (.close 57#16) = true)
    ∧ stopTicket.route ≠ .local ∧ ({ stopTicket with route := .local } : Ticket).route = .local
    ∧ (stopTicket.severity = .stop ∧ stopTicket.cleared = false ∧ (0#8).getLsbD 0 = false ∧ (1#8).getLsbD 0 = true) := by decide +kernel

theorem witness_ReportsAndNumbersMakeTickets :
    let r := (ticketed stopTicket).site.recs
    let full : Recs := { (one oven).site.recs with tickets := Vector.replicate 64 (some { stopTicket with slot := 0 }) }
    let evict : Recs := full.putTicket 63 (some { stopTicket with state := .resolved, resolvedAt := some 5#32 })
    (live.site.recs.oven 6 = none) ∧ (r.oven 6 = some oven ∧ r.liveAt 6 12 = some 9 ∧ r.ticket 9 = some stopTicket)
    ∧ (r.liveAt 6 31 = none ∧ r.freePlace = some 0 ∧ 1 ≤ r.nextTicket ∧ r.nextTicket ≤ 65535)
    ∧ (evict.oven 6 = some oven ∧ evict.liveAt 6 12 = none ∧ evict.freePlace = none
      ∧ evict.ticketIs 63 (fun t => decide (t.state = .resolved)) = true
      ∧ ∀ j : Fin 64, j ≠ 63 → evict.ticketIs j (fun t => decide (t.state ≠ .resolved)) = true)
    ∧ (full.oven 6 = some oven ∧ full.liveAt 6 12 = none ∧ full.freePlace = none
      ∧ ∀ j : Fin 64, full.ticketIs j (fun t => decide (t.state ≠ .resolved)) = true)
    ∧ (1 ≤ 1 ∧ 65535 ≤ 65535) := by decide +kernel
theorem witness_ReportsAndNumbersMakeTickets_events :
    let c := campaignIn .running member6
    (∀ n ∈ [12, 0, 255], (polled oven c).brings 6 oven pollOf [0#8, 0#8, 0#8, 4#8] false [BitVec.ofNat 8 n, 0#8, 0#8, 3#8])
    ∧ ((polled oven c).site.recs.liveAt 6 12 = some 63 ∧ (polled oven c).site.recs.ticket 63 = some stopTicket ∧ stopTicket.severity = .stop)
    ∧ ((polled oven c).site.recs.liveAt 6 0 = none ∧ (polled oven c).site.recs.liveAt 6 27 = none
      ∧ (polled oven c).site.recs.freePlace = some 0 ∧ oven.unreachable = false) := by
  refine ⟨fun n _ => polled_brings _ _ _ _ rfl (by simp), by decide +kernel⟩

theorem witness_CampaignIsDefinedFedAndDismissed :
    let c := campaignIn .running member6
    let s := site6 oven c
    (live.takesLive (.campaignDefine 65535#16 0#16 ⟨0#8, 0#8, 0#16⟩ 0#32 0#32 255#8) = true ∧ live.site.recs.campaign = none
      ∧ (65535#16 : BitVec 16) ≠ 0#16)
    ∧ (s.takesLive (.campaignDefine 1#16 0#16 ⟨0#8, 0#8, 0#16⟩ 0#32 0#32 0#8) = true ∧ s.site.recs.campaign ≠ none)
    ∧ ((site6 oven { c with state := .finished }).takesLive .dismiss = true
      ∧ (site6 oven { c with state := .cancelled }).takesLive .dismiss = true
      ∧ ∀ i : Fin 24, (site6 oven { c with state := .finished }).site.recs.activating i = false)
    ∧ (let m : Member := { member6 with state := .activating }
       let p := site6 { oven with updateHold := true } { campaignIn .finished m with state := .finished }
       p.takesLive .dismiss = true ∧ p.site.recs.activating 6 = true
        ∧ after .dismiss p (fun t => t.site.recs.ovenIs 6 fun o => !o.updateHold) = true)
    ∧ (s.takesLive .dismiss = true ∧ c.state ≠ .finished ∧ c.state ≠ .cancelled)
    ∧ (s.takesLive (.chunkPut 43#16 1#16 (List.replicate 128 7#8)) = true ∧ c.id = (43#16).toNat
      ∧ (List.replicate 128 7#8).length = 128 ∧ (1#16).toNat ∈ c.wanted ∧ (0#16).toNat ∉ c.wanted) := by decide +kernel

theorem witness_CampaignRequestsMoveTheCampaign :
    let s (x : CampaignState) := site6 oven (campaignIn x member6)
    let n (x : CampaignState) := site6 oven { campaignIn x member6 with members := [] }
    ∀ x ∈ [CampaignState.opened, .running, .paused],
      ((s x).site.recs.campaign = some (campaignIn x member6) ∧ (s x).takesLive (.removeMember 6#8) = true
        ∧ (campaignIn x member6).member 6 = some member6 ∧ member6.state ≠ .activating)
      ∧ ((n x).takesLive (.addMember 6#8) = true ∧ (n x).site.recs.oven 6 = some oven
        ∧ ({ campaignIn x member6 with members := [] } : Campaign).member 6 = none)
      ∧ ((s x).takesLive .start = true ∧ (s x).takesLive .pause = true ∧ (s x).takesLive .resume = true ∧ (s x).takesLive .cancel = true) := by
  decide +kernel

theorem witness_AdmissionFillsOneWave :
    let c : Campaign := { campaignIn .running member6 with
      waveSize := 1, members := [newMember 5, { newMember 6 with state := .deferred, defer := some .held }, newMember 7, newMember 8] }
    let r := holding fun r => ((({ r with campaign := some c }.putOven 5 (some oven)).putOven 6 (some oven)).putOven 7
      (some { oven with firmware := c.firmware })).putOven 8 (some { oven with unreachable := true })
    (r.site.recs.campaign = some c ∧ c.state = .running ∧ c.phase = .none ∧ (∀ m ∈ c.members, m.wave = false))
    ∧ (r.site.recs.verdict c 5 = .eligible ∧ r.site.recs.verdict c 6 = .eligible ∧ r.site.recs.verdict c 7 = .already
      ∧ r.site.recs.verdict c 8 = .defer .unreachable ∧ c.members.Pairwise (fun m n => m.slot < n.slot))
    ∧ (r.site.recs.oven 5 = some oven ∧ live.site.env.phase = .live ∧ State.reset.site.env.phase = .restore) := by decide +kernel

theorem witness_ActivationKeepsOneOvenPerZone :
    let m : Member := { member6 with state := .ready }
    let o : Oven := { oven with obligation := some (obliged .granted (some grantAt)), grantTelegram := .sent }
    let e : Env := { live.site.env with mode := .closed }
    let r := (site6 { o with untracked := none } { campaignIn .running m with wanted := [], window := [] }).site.recs.putTicket 63 none
    let t := r.activationCheck e
    (r.campaign.isSome = true ∧ r.member 6 = some m ∧ r.oven 6 = some o ∧ r.mayActivate e 6 = true ∧ e.phase = .live ∧ e.mode = .closed
      ∧ ∀ j : Fin 24, j ≠ 6 → r.mayActivate e j = false)
    ∧ (t.activating 6 = true ∧ r.activating 6 = false ∧ r.oblIs 6 .granted = true ∧ o.grantTelegram = .sent)
    ∧ ((r.activationCheckIn e 1).activating 6 = true ∧ o.zone = 1
      ∧ ∀ z : Fin 4, z ≠ 1 → (r.activationCheckIn e z).activating 6 = false)
    ∧ ((∀ z : Fin 4, (live.site.recs.activatingIn z).length ≤ 1) ∧ Env.reset.profile.activate = false ∧ Env.reset.phase = .restore
      ∧ ∀ i : Fin 24, live.site.recs.mayActivate live.site.env i = false)
    ∧ (let r := (site6 oven (campaignIn .running { member6 with state := .activating })).site.recs
       r.activating 6 = true ∧ ∀ z : Fin 4, (r.activatingIn z).length ≤ 1) := by decide +kernel

/-- R163: the activation check after a retirement examines the READY members of the retired oven's zone alone. -/
theorem test_retirement_checks_its_own_zone :
    let ready (i : Fin 24) : Member := { newMember i with state := .ready }
    let c : Campaign := { campaignIn .running member6 with members := [ready 6, ready 7], wanted := [], window := [] }
    let r (z : Fin 4) := (holding fun r => (({ r with campaign := some c }.putOven 5 (some { oven with zone := z })).putOven 6
      (some oven)).putOven 7 (some { oven with zone := 2 })).site.recs
    let activated (z : Fin 4) : Bool × Bool :=
      let t := (r z).retireProceed { live.site.env with mode := .closed } 5
      (t.activating 6, t.activating 7)
    activated 1 = (true, false) ∧ activated 2 = (false, true) ∧ activated 3 = (false, false) := by decide +kernel

/-- A campaign that streams, within its ranges, and a step in which it goes on. -/
theorem witness_ActivationKeepsOneOvenPerZone_form :
    let m : Member := { member6 with state := .transfer, wave := true, gaps := [0, 1, 19] }
    let c : Campaign := { campaignIn .running m with phase := .streaming, cursor := 2 }
    let s := site6 oven c
    c.inForm ∧ s.site.recs.campaign = some c
      ∧ after (.chunkPut 43#16 1#16 (List.replicate 128 7#8)) s
        (fun t => decide (t.site.recs.campaign.map (fun c => (c.wanted, c.held)) = some ([], [0, 1]))) = true := by
  refine ⟨?_, by decide +kernel, by decide +kernel⟩
  unfold Campaign.inForm Member.inForm
  refine ⟨by decide, by decide, by decide, by decide, ?_, by decide, by decide, by decide, by decide, by decide, by decide, by decide⟩
  intro m hm
  obtain rfl : m = _ := List.mem_singleton.mp hm
  exact ⟨by decide, by decide, by decide, by decide, by decide, by decide, by simp [member6, newMember]⟩

/-- A reply to an UPDATE_BEGIN that a member of an earlier campaign owed leaves the one that the member owes now (R151). -/
theorem test_old_update_begin_reply :
    let m : Member := { newMember 6 with wave := true, owed := some .begin }
    let r (x : Bool) := (site6 oven (campaignIn .running { m with onLine := x })).site.recs
    ((r false).delivered live.site.env 6 (.update .begin)).member 6 = some m
      ∧ ((r true).delivered live.site.env 6 (.update .begin)).member 6 = some { m with owed := none, onLine := true } := by decide +kernel

theorem witness_MemberEventsTakeTheirEffect :
    let other : Member := { newMember 5 with state := .transfer, wave := true }
    let c (m : Member) : Campaign := { campaignIn .running m with members := [other, m], repaired := [19] }
    let s (m : Member) := site6 oven (c m)
    let meets (m : Member) : Prop := (s m).running = true ∧ (s m).site.recs.oven 6 = some oven
      ∧ (s m).site.recs.campaign = some (c m) ∧ (c m).member 6 = some m
    meets { member6 with state := .activating } ∧ oven.lifecycle ≠ .retiring
    ∧ (meets { member6 with state := .verify, attempts := 2 } ∧ ({ member6 with state := .verify, attempts := 2 } : Member).canFail .crc = true)
    ∧ (meets { member6 with state := .repair, attempts := 2 } ∧ ({ member6 with state := .repair } : Member).canFail .gaps = true
      ∧ ({ member6 with state := .repair } : Member).canFail .repairLimit = true)
    ∧ (meets { member6 with wave := true, attempts := 2 } ∧ ({ member6 with wave := true } : Member).canFail .refused = true)
    ∧ (meets { member6 with state := .queued, wave := true, beginTurns := 4 } ∧ other ∈ (c member6).members ∧ other.slot ≠ 6
      ∧ other.state = .transfer)
    ∧ (meets { member6 with state := .repair, repairs := 16, attempts := 1 } ∧ 1 ≤ 1 ∧ 19 < (c member6).chunks
      ∧ 19 ∈ (c member6).repaired) := by decide +kernel

theorem witness_MemberEventsTakeTheirEffect_events :
    let c (p : WavePhase) (m : Member) : Campaign := { campaignIn .running m with phase := p, repaired := [19], wanted := [], window := [] }
    (∀ (p : WavePhase) (m : Member) (b : List Byte) (tag : Bool), b.length ≤ 249 →
      (polled oven (c p m)).brings 6 oven pollOf [0#8, 0#8, 0#8, 4#8] tag b ∧ (polled oven (c p m)).site.recs.campaign = some (c p m))
    ∧ ((c .forming { member6 with wave := true, attempts := 2 }).member 6 = some { member6 with wave := true, attempts := 2 }
      ∧ member6.state = .queued ∧ (c .forming member6).phase ≠ .none
      ∧ eventOf 8 [43#8, 0#8, 0#8] = some (.updateReady (c .forming member6).id true)
      ∧ eventOf 8 [43#8, 0#8, 1#8] = some (.updateReady (c .forming member6).id false))
    ∧ (eventOf 9 [43#8, 0#8, 1#8, 19#8, 0#8] = some (.updateGap (c .repair member6).id [19]) ∧ 19 < (c .repair member6).chunks
      ∧ 15 + [19].countP (fun g => decide (g ∈ (c .repair member6).repaired)) ≤ 16
      ∧ 16 < 16 + [19].countP (fun g => decide (g ∈ (c .repair member6).repaired))
      ∧ (mergeGaps (List.range 31) [31]).length ≤ 32 ∧ 32 < (mergeGaps (List.range 32) [32]).length)
    ∧ eventOf 10 [43#8, 0#8] = some (.updateComplete (c .repair member6).id)
    ∧ (∀ n ∈ [0, 1, 2, 255], eventOf 11 [43#8, 0#8, BitVec.ofNat 8 n] = some (.verifyResult (c .repair member6).id n))
    ∧ (eventOf 12 [4#8, 3#8, 7#8, 0#8] = some (.booted (c .none member6).firmware) ∧ oven.lifecycle ≠ .retiring)
    ∧ ((polled oven (c .none member6)).site.recs.activating 6 = false ∧ oven.lifecycle = .inService) := by
  refine ⟨fun p m b tag hb => ⟨polled_brings _ _ _ _ rfl hb, rfl⟩, by decide +kernel⟩

theorem witness_RoundStartReadsTheProfileAndGivesTheFirstTurn :
    let s (tick : Nat) : State :=
      { (one oven) with site := { env := { live.site.env with tick := tick }
                                  recs := (one oven).site.recs.modObm fun b => { b with startTick := some 1000, interval := 200 } } }
    ((s 1199).running = true ∧ (s 1199).site.recs.obm.phase = .waiting ∧ (s 1199).site.recs.obm.startTick = some 1000
      ∧ (s 1199).site.env.tick < 1000 + (s 1199).site.recs.obm.interval)
    ∧ ((s 1200).running = true ∧ (s 1200).site.recs.obm.phase = .waiting ∧ (s 1200).site.recs.obm.startTick = some 1000
      ∧ 1000 + (s 1200).site.recs.obm.interval ≤ (s 1200).site.env.tick ∧ (s 1200).site.recs.oven 6 = some oven
      ∧ oven.lifecycle ≠ .failed ∧ ∀ j : Fin 24, j < 6 → (s 1200).site.recs.oven j = none)
    ∧ (live.site.recs.campaign = none ∧ ∀ j : Fin 24, live.site.recs.oven j = none) := by decide +kernel
theorem witness_RoundStartReadsTheProfileAndGivesTheFirstTurn_turns :
    let c := campaignIn .running member6
    let s (o : Oven) (w : Work) (p : BusPhase) (n : Nat) (x : Bool) : State :=
      (sent o c w 3 p).withRecs ((sent o c w 3 p).site.recs.modObm fun b => { b with exchanges := n, freed := x })
    (∀ w ∈ [Work.poll, .release true, .revoke, .drop 4095], ∀ n ∈ [1, 3, 4], ∀ x ∈ [true, false], ∀ p ∈ [BusPhase.listening, .attemptFailed],
      (s oven w p n x).running = true ∧ (s oven w p n x).site.recs.obm.position = some 6
        ∧ (s oven w p n x).site.recs.obm.exchange = some (exchangeOf w 3) ∧ (s oven w p n x).site.recs.obm.freed = x
        ∧ (s oven w p n x).site.recs.obm.phase = p ∧ (s oven w p n x).site.recs.obm.exchanges = n ∧ 3 ≤ 3 ∧ [0#8, 0#8, 0#8, 4#8].length = 4)
    ∧ (bitOf (byteAt [0#8, 0#8, 0#8, 4#8] 3) 2 = true ∧ bitOf (byteAt [0#8, 0#8, 0#8, 0xFB#8] 3) 2 = false ∧ Work.poll.plain = true)
    ∧ (oven.lifecycle ≠ .retiring ∧ ({ oven with step := some .capsReq } : Oven).step ≠ none)
    ∧ ((s oven .poll .listening 3 false).site.recs.member 6 = some member6 ∧ member6.owed = none ∧ oven.step = none
      ∧ oven.revokeOwed = false ∧ oven.grantTelegram ≠ .owed ∧ oven.abortOwed = none ∧ oven.clearPending = false ∧ oven.carried = []
      ∧ oven.target = [] ∧ oven.unreachable = false ∧ oven.obligation = none ∧ activityOfCode 0 = some oven.activity) := by decide +kernel
/-- R30: a turn whose exchange brought more events goes on after its third exchange and ends after its fourth; the next is that of
slot 7. -/
theorem test_turn_ends_after_four_exchanges :
    let s (n : Nat) : State := (polled oven (campaignIn .running member6)).withRecs
      (((polled oven (campaignIn .running member6)).site.recs.putOven 7 (some { oven with serial := 2#48 })).modObm fun b => { b with exchanges := n })
    let place (n : Nat) (p : Fin 24 × Nat) : Bool := after (.exchangeSuccess (replyFrame 6 pollOf [0#8, 0#8, 0#8, 4#8])) (s n) fun t =>
      decide (t.site.recs.obm.phase = .turn ∧ t.site.recs.obm.position = some p.1 ∧ t.site.recs.obm.exchanges = p.2)
    place 3 (6, 3) = true ∧ place 4 (7, 0) = true := by decide +kernel

/-- The part in the turn of slot 6, with no frame ahead of the oven's exchange. -/
def inTurn (o : Oven) : State := onBus o fun b => { b with phase := .turn, position := some 6 }
theorem inTurn_meets (o : Oven) : (inTurn o).running = true ∧ (inTurn o).site.recs.obm.phase = .turn
    ∧ (inTurn o).site.recs.obm.position = some 6 ∧ (inTurn o).site.recs.obm.freed = false ∧ (inTurn o).site.recs.obm.halts = []
    ∧ (inTurn o).site.recs.oven 6 = some o ∧ (inTurn o).site.recs.member 6 = none := ⟨rfl, rfl, rfl, rfl, rfl, rfl, rfl⟩

theorem witness_ExchangeStartSendsTheFirstOwnersTelegram :
    (fresh.lifecycle = .addressing ∧ fresh.step = some .assign)
    ∧ (oven.step = none ∧ oven.lifecycle ≠ .retiring ∧ oven.revokeOwed = false ∧ oven.grantTelegram ≠ .owed ∧ oven.abortOwed = none)
    ∧ (oven.releaseDue = false ∧ (obliged .granted (some grantAt)).grant = some grantAt)
    ∧ (oven.lifecycle = .inService ∧ oven.activity = .idle ∧ oven.unreachable = false ∧ oven.inFlight = none
      ∧ oven.clearPending = false ∧ oven.carried = [] ∧ oven.target = []) := by decide +kernel
theorem witness_ExchangeStartSendsTheFirstOwnersTelegram_drop :
    let old : Entry := { id := 4095, held := some 1, wanted := none, state := some .stale, clamped := false }
    let o : Oven := { oven with carried := [{ old with id := 1, wanted := some 1, state := some .current }, old], target := [(1, 1)] }
    o.carried.Pairwise (fun a b => a.id < b.id) ∧ (old ∈ o.carried ∧ old.state = some .stale ∧ ∀ p ∈ o.target, p.1 ≠ old.id)
    ∧ ∀ x ∈ o.carried, x.state = some .stale → old.id ≤ x.id := by decide +kernel
/-- What an oven of a small store is sent by R77 to R80: with one STALE entry in its target, one carried as CURRENT and one to add. -/
theorem witness_ExchangeStartSendsTheFirstOwnersTelegram_load :
    let en (id v : Nat) (x : EntryState) : Entry := { id := id, held := some v, wanted := some 3, state := some x, clamped := false }
    let dry : Capability := { able with steam := false, probe := false, capacity := 3 }
    let o (l : List Entry) : Oven := { oven with capability := some dry, carried := l, target := [(1, 1), (212, 3)] }
    let cook : CookCtx := { recipe := 212, version := none, startedAt := 0#32, counted := false }
    let hot (l : List Entry) : Oven := { o l with activity := .cooking, cook := some cook }
    let s (o : Oven) (push : Bool) : State :=
      let t := (inTurn o).withRecs ((inTurn o).site.recs.putRecipe 127 (some dish))
      { t with site := { t.site with env := { t.site.env with
        profiles := { t.site.env.profiles with trading := { t.site.env.profile with push := push } } } } }
    let sends (o : Oven) (push : Bool) (w : Work) (f : Option InFlight) (l : List Entry) : Bool := after .exchangeStart (s o push) fun t =>
      decide (t.site.recs.obm.exchange.map Exchange.work = some w) && t.site.recs.ovenIs 6 fun o' => decide (o'.inFlight = f ∧ o'.carried = l)
    let load : InFlight := { id := 212, load := some 3, delivered := false, clamped := true }
    let cur := en 1 1 .current
    let old := en 212 2 .stale
    let added : Entry := { id := 212, held := none, wanted := some 3, state := some .loading, clamped := false }
    (s (o [cur]) true).site.recs.recordOf 212 3 = some dish ∧ (o [cur, old]).target = [(1, 1)] ++ (212, 3) :: []
    ∧ sends (o [cur, old]) false (.load 212 3) (some load) [cur, en 212 2 .loading] = true
    ∧ sends (o [cur]) false (.load 212 3) (some load) [cur, added] = true
    ∧ sends (hot [cur, old]) true .poll none [cur, old] = true ∧ sends (hot [cur]) true .poll none [cur] = true
    ∧ sends { hot [en 7 2 .stale, old] with target := [] } true (.drop 7)
        (some { id := 7, load := none, delivered := false, clamped := false }) [en 7 2 .dropping, old] = true
    ∧ sends { hot [en 7 2 .stale] with target := [] } false .poll none [en 7 2 .stale] = true
    ∧ sends { o [old] with activity := .cleaning, clearPending := true } false .clearSet none [old] = true
    ∧ sends { hot [old] with clearPending := true } true .poll none [old] = true
    ∧ sends { o [old] with inFlight := some { load with id := 9, delivered := true } } false .poll (some { load with id := 9, delivered := true }) [old]
      = true := by decide +kernel
/-- R79: on an oven without steam and probe, with temperatures 40 to 250, a COMBI stage to a core temperature. -/
theorem test_adapted_stage :
    let c : Capability := { able with tempMin := 40, tempMax := 250, steam := false, probe := false }
    Stage.adapt c { mode := .combi, setpoint := 300, humidity := 60, fan := 4, stop := .probe 72 900 }
      = { mode := .convection, setpoint := 250, humidity := 0, fan := 4, stop := .time 900 } := by decide +kernel
theorem witness_ExchangeStartSendsTheFirstOwnersTelegram_update :
    let m : Member := { member6 with owed := some .begin }
    let s := (site6 oven (campaignIn .running m)).withRecs ((site6 oven (campaignIn .running m)).site.recs.modObm fun b =>
      { b with phase := .turn, position := some 6 })
    s.running = true ∧ s.site.recs.obm.phase = .turn ∧ s.site.recs.obm.halts = [] ∧ s.site.recs.oven 6 = some oven
    ∧ s.site.recs.member 6 = some m ∧ m.owed = some .begin ∧ oven.step = none ∧ oven.abortOwed = none ∧ oven.lifecycle ≠ .retiring := by
  decide +kernel

/-- An exchange with the oven in slot 6 that has made some attempts, in a phase of the bus. -/
def tried (o : Oven) (n : Nat) (p : BusPhase) : State :=
  onBus o fun b => { b with phase := p, position := some 6, exchanges := 1
                            exchange := some { work := .poll, kind := .poll, address := 7#8, payload := [], attempts := n, carried := .none } }

theorem witness_AttemptsFailAreRepeatedAndEventsAreTakenOnce :
    ((tried oven 1 .listening).running = true ∧ (tried oven 1 .listening).site.recs.obm.position = some 6
      ∧ (tried oven 1 .listening).site.recs.obm.exchange.isSome = true ∧ (tried oven 1 .listening).site.recs.obm.phase = .listening
      ∧ replyPayload 6 ⟨.poll, .poll, 7#8, [], 1, .none⟩ [] = none)
    ∧ (∀ n ∈ [1, 2], (tried oven n .attemptFailed).site.recs.obm.phase = .attemptFailed ∧ n < 3
      ∧ (tried oven n .attemptFailed).site.recs.obm.halts = [])
    ∧ ((one { oven with tag := some true }).site.recs.oven 6 = some { oven with tag := some true }
      ∧ 6 ≤ [0#8, 0#8, 0#8, 0#8, 3#8, 1#8].length ∧ some true = some (bitOf (byteAt [0#8, 0#8, 0#8, 0#8, 3#8, 1#8] 5) 0)) := by
  decide +kernel

theorem witness_AttemptsFailAreRepeatedAndEventsAreTakenOnce_events :
    let c := campaignIn .running member6
    let en : Entry := { id := 212, held := some 2, wanted := some 3, state := some .loading, clamped := false }
    let load : InFlight := { id := 212, load := some 3, delivered := true, clamped := true }
    let y : List Byte := [212#8, 0#8, 3#8, 0#8, 1#8, 2#8, 200#8, 0#8, 88#8, 2#8, 0#8]
    (∀ (o : Oven) (p : List Byte) (tag : Bool), o.tag = none → p.length ≤ 249 → (polled o c).brings 6 o pollOf [0#8, 0#8, 0#8, 4#8] tag p)
    ∧ ((∀ k0, oven.cook = some k0 → k0.recipe ≠ 212 ∨ k0.version ≠ some 3) ∧ (polled oven c).site.recs.recipe 127 = some dish
      ∧ numAt [212#8, 0#8, 3#8] 0 2 = dish.id ∧ numAt [212#8, 0#8, 3#8] 2 1 = dish.version)
    ∧ ((eventOf 2 y).isSome = true ∧ (eventOf 2 [0#8, 0#8, 0#8, 1#8, 0#8]).isSome = true ∧ oven.lifecycle ≠ .retiring)
    ∧ (({ oven with inFlight := some load, carried := [en] } : Oven).entry 212 = some en ∧ load.id = 212 ∧ load.load = some 3
      ∧ load.delivered = true ∧ numAt [212#8, 0#8, 3#8, 0#8] 3 1 = 0 ∧ numAt [212#8, 0#8, 3#8, 255#8] 3 1 ≠ 0)
    ∧ ({ load with load := none } : InFlight).load = none
    ∧ (({ oven with carried := [en] } : Oven).entry 212 = some en ∧ oven.inFlight = none ∧ en.held = some 2 ∧ en.held ≠ some 3)
    ∧ oven.entry 212 = none := by
  refine ⟨fun o p tag ht hp => polled_brings o _ tag p ht hp, by decide +kernel⟩

theorem witness_AttemptsFailAreRepeatedAndEventsAreTakenOnce_owners :
    let c := campaignIn .running member6
    let f : InFlight := { id := 212, load := some 3, delivered := false, clamped := false }
    let en : Entry := { id := 212, held := some 2, wanted := some 3, state := some .loading, clamped := false }
    (∀ (o : Oven) (c : Campaign) (w : Work), (sent o c w 1 .listening).listens 6 o (exchangeOf w 1) ∧ (sent o c w 3 .attemptFailed).gaveUp 6 o (exchangeOf w 3))
    ∧ (oven.lifecycle ≠ .retiring ∧ [0#8, 0#8, 0#8, 0#8].length = 4 ∧ oven.grantTelegram ≠ .sent ∧ oven.target = []
      ∧ ({ oven with target := [(1, 1)] } : Oven).target ≠ [] ∧ oven.capability = some able ∧ 0 < able.capacity)
    ∧ ((sent oven c .clearSet 1 .listening).site.recs.member 6 = some member6 ∧ (member6.state ≠ .queued ∨ member6.wave = false))
    ∧ (let m : Member := { member6 with state := .activating, owed := some .activate }
       (sent oven (campaignIn .running m) (.update .activate) 1 .listening).site.recs.member 6 = some m ∧ bitOf (byteAt [3#8, 0#8, 0#8, 4#8] 3) 2 = true)
    ∧ (({ oven with inFlight := some f, carried := [en] } : Oven).inFlight = some f ∧ [en].Pairwise (fun a b => a.id < b.id)
      ∧ ({ oven with inFlight := some f, carried := [en] } : Oven).entry f.id = some en) := by
  refine ⟨fun o c w => ⟨sent_exchanging o c w 1 .listening, sent_gaveUp o c w⟩, by decide +kernel⟩
/-- R80: a load that the oven did not take: a replacement is STALE again, an addition is gone. -/
theorem test_failed_load :
    let f : InFlight := { id := 212, load := some 3, delivered := false, clamped := false }
    let en (held : Option Nat) (x : EntryState) : Entry := { id := 212, held := held, wanted := some 3, state := some x, clamped := false }
    let left (held : Option Nat) (l : List Entry) : Bool :=
      after .exchangeFailure (sent { oven with inFlight := some f, carried := [en held .loading] } (campaignIn .running member6) (.load 212 3) 3 .attemptFailed)
        fun t => t.site.recs.ovenIs 6 fun o => decide (o.inFlight = none ∧ o.carried = l ∧ o.missed = 1)
    left (some 2) [en (some 2) .stale] = true ∧ left none [] = true := by decide +kernel

/-- The answer to CAPS_REQ of a record in PROFILING or REJOINING, with the last event or with more to follow; a RETIRING record's. -/
theorem witness_PollOutcomeUpdatesReachability_caps : ∀ (l : Lifecycle) (b : Byte) (p : List Byte), p.length ≤ 249 →
    let o : Oven := { oven with lifecycle := l, step := some .capsReq }
    (sent o (campaignIn .running member6) .capsReq 1 .listening).carries 6 o (exchangeOf .capsReq 1) [0#8, 0#8, 0#8, b] true p :=
  fun l b p h => ⟨sent_exchanging _ _ _ 1 .listening, rfl, rfl, by simp [oven, fresh, Env.newOven], h⟩

theorem witness_PollOutcomeUpdatesReachability_commissioning :
    (∀ (l : Lifecycle) (x : Option CommStep) (w : Work), let o : Oven := { oven with lifecycle := l, step := x }
      (sent o (campaignIn .running member6) w 1 .listening).listens 6 o (exchangeOf w 1)
        ∧ (sent o (campaignIn .running member6) w 3 .attemptFailed).gaveUp 6 o (exchangeOf w 3))
    ∧ (sent oven (campaignIn .running member6) (.release false) 3 .attemptFailed).site.recs.activating 6 = false ∧ oven.missed < 4
    ∧ replyPayload 6 (exchangeOf (.release true) 1) (replyFrame 6 (exchangeOf (.release true) 1) [0#8, 0#8, 0#8, 0#8]) = some [0#8, 0#8, 0#8, 0#8] := by
  refine ⟨fun l x w => ⟨sent_exchanging _ _ w 1 .listening, sent_gaveUp _ _ w⟩, by decide +kernel⟩

/-- R6, R7, R22: what a reply to ASSIGN and the end of a RELEASE do to the record. -/
theorem test_assign_and_release :
    let c := campaignIn .running member6
    let o (l : Lifecycle) (x : CommStep) : Oven := { oven with lifecycle := l, step := some x }
    let reply (w : Work) : Instr := .exchangeSuccess (replyFrame 6 (exchangeOf w 1) [0#8, 0#8, 0#8, 0#8])
    let at_ (l : Lifecycle) (x : CommStep) (t : State) : Bool := t.site.recs.ovenIs 6 fun o => decide (o.lifecycle = l ∧ o.step = some x)
    after (reply .assign) (sent (o .addressing .assign) c .assign 1 .listening) (at_ .profiling .capsReq) = true
    ∧ after (reply (.release false)) (sent (o .profiling .release) c (.release false) 1 .listening) (at_ .addressing .assign) = true
    ∧ after .exchangeFailure (sent (o .rejoining .release) c (.release false) 3 .attemptFailed) (at_ .rejoining .capsReq) = true
    ∧ after .exchangeFailure (sent (o .retiring .release) c (.release true) 3 .attemptFailed) (fun t => decide (t.site.recs.oven 6 = none)) = true := by
  decide +kernel

theorem witness_PollOutcomeUpdatesReachability_events :
    let c := campaignIn .running member6
    let y : List Byte := u48 40960117 ++ u16 310 ++ [4#8, 2#8, 118#8, 0#8] ++ [30#8] ++ u16 300 ++ [3#8, 12#8, 30#8] ++ u32 7
    let z : List Byte := u48 0 ++ u16 310 ++ [4#8, 2#8, 118#8, 0#8] ++ [30#8] ++ u16 300 ++ [3#8, 12#8, 30#8] ++ u32 7
    let serialOf (p : List Byte) : Option Serial := match eventOf 13 p with | some (.caps x) => some x.serial | _ => none
    (∀ l ∈ [Lifecycle.addressing, .profiling, .loading, .inService, .rejoining, .retiring], ∀ served ∈ [true, false], ∀ p ∈ [y, z],
      let o : Oven := { oven with lifecycle := l, served := served }
      (polled o c).brings 6 o pollOf [0#8, 0#8, 0#8, 4#8] true p ∧ (polled o c).brings 6 { o with serial := o.serial } pollOf [0#8, 0#8, 0#8, 4#8] false p)
    ∧ (serialOf y = some oven.serial ∧ oven.serial ≠ 0#48 ∧ ({ oven with serial := 1#48 } : Oven).serial ≠ oven.serial
      ∧ serialOf z = some 0#48 ∧ oven.clearPending = false ∧ digest oven.abandonWork.carried ≠ 7#32)
    ∧ (bitOf (byteAt [1#8, 212#8, 0#8, 0#8] 3) 2 = false ∧ (∀ n ∈ [0, 1, 2, 3], (activityOfCode (numAt [BitVec.ofNat 8 n, 212#8, 0#8, 0#8] 0 1)).isSome = true)
      ∧ bitOf (byteAt [0#8, 0#8, 0#8, 4#8] 3) 2 = true ∧ activityOfCode (numAt [4#8, 0#8, 0#8, 0#8] 0 1) = none) := by
  refine ⟨fun l _ served _ p hp => ?_, by decide +kernel⟩
  have h : p.length ≤ 249 := by
    simp only [List.mem_cons, List.not_mem_nil, or_false] at hp
    rcases hp with rfl | rfl <;> decide
  exact ⟨polled_brings _ _ _ _ rfl h, polled_brings _ _ _ _ rfl h⟩

theorem witness_PollOutcomeUpdatesReachability :
    let s := tried oven 1 .listening
    let f := tried { oven with missed := 5 } 3 .attemptFailed
    (s.running = true ∧ s.site.recs.obm.position = some 6 ∧ s.site.recs.obm.exchange = some ⟨.poll, .poll, 7#8, [], 1, .none⟩
      ∧ s.site.recs.obm.freed = false ∧ s.site.recs.oven 6 = some oven ∧ [0#8, 0#8, 0#8, 0#8].length = 4
      ∧ s.site.recs.obm.phase = .listening ∧ oven.lifecycle ≠ .retiring)
    ∧ (f.running = true ∧ f.site.recs.obm.phase = .attemptFailed ∧ 3 ≤ 3 ∧ f.site.recs.activating 6 = false
      ∧ f.site.recs.oven 6 = some { oven with missed := 5 }) := by decide +kernel

theorem witness_PollOutcomeUpdatesReachability_retiring :
    (∀ b ∈ [true, false], let o : Oven := { oven with lifecycle := .retiring, activity := .cooking, retireForced := b }
      let s := tried o 1 .listening
      s.running = true ∧ s.site.recs.obm.position = some 6 ∧ s.site.recs.obm.exchange = some ⟨.poll, .poll, 7#8, [], 1, .none⟩
        ∧ s.site.recs.obm.freed = false ∧ s.site.recs.oven 6 = some o ∧ s.site.recs.obm.phase = .listening
        ∧ o.step ≠ some .release ∧ o.activity ≠ .idle ∧ s.site.recs.activating 6 = false)
    ∧ (bitOf (byteAt [0#8, 0#8, 0#8, 0#8] 3) 2 = false ∧ activityOfCode (numAt [0#8, 0#8, 0#8, 0#8] 0 1) = some .idle
      ∧ activityOfCode (numAt [1#8, 0#8, 0#8, 0#8] 0 1) ≠ some .idle) := by decide +kernel

theorem witness_PollOutcomeUpdatesReachability_activating : ∀ w ∈ [Work.poll, .update .activate, .release false],
    let s := (timed 0 (some 9) .attemptFailed).withRecs ((timed 0 (some 9) .attemptFailed).site.recs.modObm fun b =>
      { b with exchange := some ⟨w, .poll, 7#8, [], 3, .none⟩ })
    s.running = true ∧ s.site.recs.obm.position = some 6 ∧ s.site.recs.obm.exchange = some ⟨w, .poll, 7#8, [], 3, .none⟩
      ∧ w ≠ .release true ∧ s.site.recs.obm.freed = false ∧ s.site.recs.oven 6 = some oven ∧ s.site.recs.obm.phase = .attemptFailed
      ∧ s.site.recs.activating 6 = true := by decide +kernel

theorem witness_MissedTurnLimitsTakeTheirEffect :
    let meets (o : Oven) : Prop := (one o).running = true ∧ (one o).site.recs.oven 6 = some o ∧ (one o).site.recs.activating 6 = false
    (meets { oven with missed := 2 } ∧ oven.lifecycle = .inService ∧ oven.unreachable = false)
    ∧ ∀ l ∈ [Lifecycle.addressing, .profiling, .loading], meets { fresh with lifecycle := l, missed := 4 } := by decide +kernel

/-- A DISCOVER window open with seed 17. -/
def sweeping (r : Recs → Recs) : State := holding fun x => (r x).modObm fun b => { b with phase := .window, seed := 17 }

theorem witness_EndOfRoundAndDiscoveryTakeTheirEffect :
    let c := campaignIn .running member6
    let d := (site6 oven c).withRecs ((site6 oven c).site.recs.modObm fun b => { b with phase := .data, rate := 1 })
    let w := onBus oven fun b => { b with phase := .sweepDue }
    let h := onBus oven fun b => { b with halts := [⟨3, 1⟩] }
    let p : List Byte := u48 40960117 ++ u16 310 ++ [4#8, 2#8] ++ u16 118 ++ [0#8, 0#8, 0#8, 0#8]
    (d.running = true ∧ d.site.recs.obm.phase = .data ∧ d.site.recs.obm.halts = [] ∧ d.site.recs.campaign = some c
      ∧ d.site.recs.obm.dataSent < d.site.recs.obm.rate ∧ c.lowestChunk = some { index := 0, data := List.replicate 128 0#8 })
    ∧ (w.running = true ∧ w.site.recs.obm.phase = .sweepDue ∧ w.site.recs.obm.halts = []) ∧ (sweeping id).site.recs.obm.phase = .window
    ∧ live.takesLive .discoverNow = true
    ∧ (h.running = true ∧ h.site.recs.obm.halts = [⟨3, 1⟩] ∧ h.site.recs.obm.phase = .waiting)
    ∧ ((sweeping id).running = true ∧ 16 ≤ p.length ∧ p.length ≤ 255 ∧ BitVec.ofNat 48 (numAt p 0 6) = seen.serial
      ∧ (seen.serial.toNat % 256 ^^^ 17) % 8 = (4 : Fin 8).val ∧ (∀ i : Fin 24, (sweeping id).site.recs.oven i = none)
      ∧ seen.serial ≠ 0#48 ∧ seen.serial ∉ (sweeping id).site.recs.ignored ∧ (sweeping id).site.recs.discovered.length < 8
      ∧ (sweeping id).site.recs.obm.heard[(4 : Fin 8)] = false ∧ payloadOf 0#8 0x40#8 [] = none)
    ∧ ((sweeping fun r => r.modObm fun b => { b with heard := Vector.replicate 8 true }).site.recs.obm.heard[(4 : Fin 8)] = true)
    ∧ (8 ≤ (sweeping fun r => { r with discovered := List.replicate 8 { seen with serial := 2#48 } }).site.recs.discovered.length)
    ∧ (∀ l ∈ [Lifecycle.rejoining, .inService, .loading, .profiling, .addressing, .failed, .retiring],
        let r := (sweeping fun r => r.putOven 6 (some { oven with lifecycle := l })).site.recs
        r.oven 6 = some { oven with lifecycle := l } ∧ oven.serial = seen.serial ∧ ∀ j : Fin 24, j ≠ 6 → r.oven j = none)
    ∧ (seen ∈ (sweeping fun r => { r with discovered := [seen] }).site.recs.discovered)
    ∧ (seen.serial ∈ (sweeping fun r => { r with ignored := [seen.serial] }).site.recs.ignored) := by decide +kernel

theorem witness_SaveNextAndRestorePutCopyAndWriteAnIndex :
    let s := holding fun r => r.mark .settings
    let r := State.reset
    (live.takes .saveNext = true ∧ ∀ ix ∈ Index.all, live.site.recs.persist.get ix = false)
    ∧ (s.takes .saveNext = true ∧ Index.all = [] ++ Index.settings :: Index.all.tail ∧ s.site.recs.persist.get .settings = true
      ∧ (s.site.image .settings).length ≤ 500)
    ∧ (live.takes (.restorePut 0#8 0#8 []) = true ∧ live.site.env.phase = .live)
    ∧ (r.takes (.restorePut 6#8 0#8 []) = true ∧ r.site.env.phase = .restore ∧ 6 ≤ (6#8).toNat)
    ∧ (r.takes (.restorePut 2#8 24#8 []) = true ∧ r.takes (.restorePut 2#8 255#8 []) = true ∧ 24 ≤ (24#8).toNat)
    ∧ r.takes (.restorePut 0#8 0#8 []) = true
    ∧ (r.takes (.restorePut 4#8 63#8 [0#8]) = true ∧ (63#8).toNat < 64 ∧ [0#8].length ≠ 25)
    ∧ (r.takes (.restorePut 2#8 23#8 []) = true ∧ (23#8).toNat = (23 : Fin 24).val)
    ∧ (r.takes (.restorePut 4#8 0#8 []) = true ∧ (0#8).toNat = (0 : Fin 64).val) := by decide +kernel
theorem witness_SaveNextAndRestorePutCopyAndWriteAnIndex_images :
    let r := State.reset
    let ready (kind number : Nat) (b : List Byte) : Prop := r.takes (.restorePut (BitVec.ofNat 8 kind) (BitVec.ofNat 8 number) b) = true
    (ready 0 0 r.site.env.settingsImage ∧ r.site.env.settingsImage.length = 93)
    ∧ (ready 1 0 (scheduleImage eight) ∧ (scheduleImage eight).length = 1 + 3 * numAt (scheduleImage eight) 0 1
      ∧ numAt (scheduleImage eight) 0 1 ≤ 8 ∧ ((readSchedule (scheduleImage eight) 8 1).map fun l => distinct (l.map fun y => y.value.minute)) = some true
      ∧ ((readSchedule [2#8, 0#8, 0#8, 0#8, 0#8, 0#8, 1#8] 2 1).map fun l => distinct (l.map fun y => y.value.minute)) = some false
      ∧ readSchedule [1#8, 0#8, 0#8, 3#8] 1 1 = none)
    ∧ (ready 2 23 oven.image ∧ 56 ≤ oven.image.length ∧ oven.image.length = 56 + 3 * numAt oven.image 55 1
      ∧ r.site.recs.ovenImageBad 23 (r.site.env.readOven oven.image).value (carriedAt oven.image) = false)
    ∧ (ready 3 127 dish.image ∧ 36 ≤ dish.image.length ∧ dish.image.length ≤ 124 ∧ (dish.image.length - 28) % 8 = 0
      ∧ ((readRecipe dish.image).map fun x => r.site.recs.recipeImageBad 127 x.value) = some false ∧ 1 ≤ (r.site.recs.putRecipe 127 none).poolFree)
    ∧ (ready 4 63 stopTicket.image ∧ stopTicket.image.length = 25
      ∧ r.site.recs.ticketImageBad 63 (numAt stopTicket.image 2 1) (readTicket stopTicket.image).value = false)
    ∧ (let c := (campaignIn .running member6).image
       ready 5 0 c ∧ 19 ≤ c.length ∧ c.length = 19 + 5 * numAt c 18 1 ∧ numAt c 18 1 ≤ 24 ∧ (readCampaign c).value.id ≠ 0
        ∧ distinct (memberSlotsAt c) = true)
    ∧ (ready 1 1 [] ∧ ready 3 128 [] ∧ ready 4 64 [] ∧ ready 5 0 [0#8] ∧ ready 3 0 (List.replicate 28 0#8)) := by decide +kernel

theorem witness_ImagesAreReadBack :
    let t : Ticket := { stopTicket with number := 65535, occurrences := 255, state := .resolved, resolvedAt := some 1#32 }
    let q : Ticket := { t with cls := 28, origin := .part, code := 0#16, severity := .notice }
    (1 ≤ t.number ∧ t.number ≤ 65535 ∧ 1 ≤ t.occurrences ∧ t.occurrences ≤ 255 ∧ (t.resolvedAt.isSome = true → t.state = .resolved)
      ∧ (28 ≤ t.cls.val → t.origin = .part ∧ t.code = 0#16 ∧ t.severity ≠ .stop) ∧ (t.cls.val < 28 → t.origin = .oven))
    ∧ ((28 ≤ q.cls.val → q.origin = .part ∧ q.code = 0#16 ∧ q.severity ≠ .stop) ∧ (q.cls.val < 28 → q.origin = .oven))
    ∧ scheduleOk eight = true ∧ scheduleOk [] = true := by decide +kernel

/-- A member of slot 6 that returns to READY (R160) brings admission only with a change of its oven's strength: the deferred member
of slot 7 joins a wave when UPDATE was the only reason, and is left as it is under a SOFT host hold (R136, R149). -/
theorem test_return_to_ready_admits_on_a_changed_strength_only :
    let c := campaignIn .running { member6 with state := .activating }
    let r (hold : Option Bool) : Recs :=
      { Recs.reset with
        campaign := some { c with members := c.members ++ [{ newMember 7 with state := .deferred, defer := some .unreachable }] }
        ovens := (Recs.reset.ovens.set 6 (some { oven with updateHold := true, hostHold := hold })).set 7 (some oven) }
    let back (hold : Option Bool) : Recs := (r hold).withHolds live.site.env fun r => r.backToReady live.site.env 6
    (∀ hold ∈ [none, some false], ((back hold).member 6).map Member.state = some .ready)
      ∧ ((back none).member 7).map (fun m => (m.state, m.defer, m.owed)) = some (.queued, none, some .begin)
      ∧ ((back (some false)).member 7).map (fun m => (m.state, m.defer, m.owed)) = some (.deferred, some .unreachable, none) := by
  decide +kernel

theorem witness_GoLiveReconcilesTheRecords : (live.takes .goLive = true ∧ live.site.env.phase = .live)
    ∧ (State.reset.takes .goLive = true ∧ State.reset.site.env.phase = .restore) := by decide +kernel

/-- Every invariant's premises hold of the LIVE part with an oven in service, and a step follows. -/
theorem witness_invariants : (one oven).port.consistent = true ∧ (one oven).site.env.inRange = true
    ∧ (one oven).site.recs.persist.count = (one oven).site.recs.persist.dirtyFlags
    ∧ (one oven).site.recs.grantsOut ≤ (one oven).site.env.profile.limit - (one oven).site.recs.cleaningCount
    ∧ (oven.soil.score < (one oven).site.env.soil.t1 ∧ 0 < oven.soil.hygiene)
    ∧ (∀ j : Fin 64, (one oven).site.recs.ticket j = none)
    ∧ (∀ j : Fin 24, j ≠ 6 → (one oven).site.recs.oven j = none) ∧ (one oven).site.recs.discovered = []
    ∧ (one oven).site.recs.campaign = none := by decide +kernel
theorem witness_invariants_step : ∃ t, step (one oven) = .next t ∧ t.site.env.phase = .live := ⟨_, rfl, rfl⟩

theorem witness_OnlyGoLiveAndResetsChangeThePhase :
    after .goLive State.reset (fun t => decide (t.site.env.phase = .live)) = true
    ∧ after .resetFull live (fun t => decide (t.site.env.phase = .restore)) = true := by decide +kernel

end Sys2Proof.Tests
end

section
/-!
The recipe library: RECIPE_WRITE (R60, R61), stages brought into range (R56), and the requests on one record (R62 to R65).
-/
namespace Sys2Proof.Machine.RecipeLibrary

/-! ## A request taken in the LIVE phase -/

section Port
variable {c : Instr} {s : State} {owner : Site → Taken} (hc : exec c s = .next (s.hostTake c owner))
  (h : s.takesLive c = true)
include hc h

/-- A request that its owner answers OK. -/
theorem exec_of_ok {st : Site} {p : List Byte} (ho : owner s.site = st.ok p) :
    exec c s = .next (s.answer (requestCode c) .ok (Reply.ok p).payload st) := by
  rw [hc, State.hostTake_of_takes owner (State.takesLive_iff.mp h).1, ho]; rfl

/-- A request that its owner answers OK with fields that fit R170's limit. -/
theorem exec_of_ok_short {st : Site} {p : List Byte} (ho : owner s.site = st.ok p) (hp : p.length ≤ 512) :
    exec c s = .next (s.answer (requestCode c) .ok p st) := by
  rw [hc, State.hostTake_of_takes owner (State.takesLive_iff.mp h).1, ho, st.ok_of_short hp]

/-- A request that its owner refuses leaves the site and answers no payload (R170, R171). -/
theorem exec_of_refuse {why : Status} (ho : owner s.site = s.site.refuse why) :
    exec c s = .next (s.answer (requestCode c) why [] s.site) := by
  rw [hc, State.hostTake_of_takes owner (State.takesLive_iff.mp h).1, ho]; rfl

end Port

/-! ## Looking a record up -/

theorem recipeIs_of_some {r : Recs} {k : Fin 128} {x : Recipe} (h : r.recipe k = some x) (p : Recipe → Bool) :
    r.recipeIs k p = p x := by simp [Recs.recipeIs, h]

theorem recipeIs_iff {r : Recs} {k : Fin 128} {p : Recipe → Bool} :
    r.recipeIs k p = true ↔ ∃ x, r.recipe k = some x ∧ p x = true := by
  cases h : r.recipe k <;> simp [Recs.recipeIs, h]

/-- A pair that no record has is not found. -/
theorem findRecipe_eq_none {r : Recs} {id version : Nat}
    (h : ∀ (j : Fin 128) (y : Recipe), r.recipe j = some y → y.id = id → y.version ≠ version) : r.findRecipe id version = none := by
  refine List.find?_eq_none.mpr fun j _ hj => ?_
  obtain ⟨y, hy, hp⟩ := recipeIs_iff.mp hj
  simp only [Bool.and_eq_true, decide_eq_true_eq] at hp
  exact h j y hy hp.1 hp.2

/-- The slot found for a state holds a record in it. -/
theorem state_of_findState {r : Recs} {id : Nat} {v : RecipeState} {j : Fin 128} {y : Recipe} (h : r.findState id v = some j)
    (hy : r.recipe j = some y) : y.state = v := by
  have hj := List.find?_some h
  rw [recipeIs_of_some hy] at hj
  simp only [Bool.and_eq_true, decide_eq_true_eq] at hj
  exact hj.2

/-! ## The checks of R59 -/

/-- The part is LIVE and a pair is one that a record can have (R59). -/
structure Passes (st : Site) (id : BitVec 16) (version : Byte) : Prop where
  live            : st.env.live = true
  id_ne_zero      : id ≠ 0#16
  id_le           : id.toNat ≤ 4095
  version_ne_zero : version ≠ 0#8

/-- A request taken in the LIVE phase with such a pair passes. -/
theorem passes_of_takesLive {c : Instr} {s : State} {id : BitVec 16} {version : Byte} (h : s.takesLive c = true)
    (h0 : id ≠ 0#16) (h1 : id.toNat ≤ 4095) (hv : version ≠ 0#8) : Passes s.site id version :=
  ⟨(State.takesLive_iff.mp h).2, h0, h1, hv⟩

theorem libraryChecks_of_passes {st : Site} {id : BitVec 16} {version : Byte} (h : Passes st id version) (f : Taken) :
    st.libraryChecks id version f = f := by
  simp [Site.libraryChecks, Site.whenLive, h.live, h.id_ne_zero, h.version_ne_zero, Nat.not_lt.mpr h.id_le]

/-! ## RECIPE_WRITE (R60, R61) -/

section Write
variable (id : BitVec 16) (version factor mask rank len : Byte) (name : List Byte) (raw : List RawStage)

theorem exec_recipeWrite (s : State) : exec (.recipeWrite id version factor mask rank len name raw) s
    = .next (s.hostTake (.recipeWrite id version factor mask rank len name raw)
        (Site.recipeWrite id version factor mask rank len name raw)) := rfl

/-- The DRAFT that a RECIPE_WRITE with readable stages stores. -/
def draftOf (ts : List Stage) : Recipe :=
  { id := id.toNat, version := version.toNat, name := nameStored len name, factor := clamp 0 15 factor.toNat
    mask := mask, rank := rank.toNat, state := .draft, stages := ts }

/-- A RECIPE_WRITE that is taken: the DRAFT in its library slot, marked, and the answer of R61. -/
def accepted (ts : List Stage) (k : Fin 128) (st : Site) : Taken :=
  let x := draftOf id version factor mask rank len name ts
  let st1 := st.modRecs fun r => (r.putRecipe k (some x)).mark (.recipe k)
  st1.ok (st1.recs.writeAnswer k x (nameClamped len name || decide (15 < factor.toNat) || stagesClamped raw ts))

variable {id version factor mask rank len name raw}

/-- An accepted RECIPE_WRITE answers OK and leaves the DRAFT as its one change. -/
theorem exec_recipeWrite_of_accepted {s : State} {ts : List Stage} {k : Fin 128}
    (htake : s.takesLive (.recipeWrite id version factor mask rank len name raw) = true)
    (h : Site.recipeWrite id version factor mask rank len name raw s.site
      = accepted id version factor mask rank len name raw ts k s.site) :
    ∃ out, exec (.recipeWrite id version factor mask rank len name raw) s = .next (s.answer 0x28#8 .ok out { s.site with
      recs := (s.site.recs.putRecipe k (some (draftOf id version factor mask rank len name ts))).mark (.recipe k) }) :=
  ⟨_, exec_of_ok (exec_recipeWrite ..) htake h⟩

variable {st : Site} {ts : List Stage} {k : Fin 128}

/-- No stage, or more than 12. -/
theorem recipeWrite_badLength (h : Passes st id version) (hn : raw.length = 0 ∨ 12 < raw.length) :
    Site.recipeWrite id version factor mask rank len name raw st = st.refuse .badLength := by
  simp only [Site.recipeWrite, libraryChecks_of_passes h, if_pos hn]

variable (h : Passes st id version) (hlen : ¬(raw.length = 0 ∨ 12 < raw.length)) (hts : readStages raw = some ts)
include h hlen hts

/-- A new pair goes to the lowest free slot when no record of its id forbids it and the pool has room. -/
theorem recipeWrite_new
    (hfree : ∀ (j : Fin 128) (y : Recipe), st.recs.recipe j = some y → y.id = id.toNat → y.state ≠ .draft ∧ y.version < version.toNat)
    (hk : st.recs.freeLibrary = some k) (hp : ts.length ≤ st.recs.poolFree) :
    Site.recipeWrite id version factor mask rank len name raw st = accepted id version factor mask rank len name raw ts k st := by
  have hnone : st.recs.findRecipe id.toNat version.toNat = none :=
    findRecipe_eq_none fun j y hy hid => Nat.ne_of_lt (hfree j y hy hid).2
  have hany : ¬(libraryPlaces.any fun j => st.recs.recipeIs j fun y =>
      decide (y.id = id.toNat) && (decide (y.state = .draft) || decide (version.toNat ≤ y.version))) = true := by
    intro hbad
    obtain ⟨j, -, hj⟩ := List.any_eq_true.mp hbad
    obtain ⟨y, hy, hq⟩ := recipeIs_iff.mp hj
    simp only [Bool.and_eq_true, Bool.or_eq_true, decide_eq_true_eq] at hq
    obtain ⟨hdraft, hlt⟩ := hfree j y hy hq.1
    exact hq.2.elim hdraft (Nat.not_le.mpr hlt)
  simp only [Site.recipeWrite, libraryChecks_of_passes h, if_neg hlen, hts, hnone, if_neg hany, hk, if_neg (Nat.not_lt.mpr hp)]
  rfl

variable {y : Recipe} (hk : st.recs.findRecipe id.toNat version.toNat = some k) (hy : st.recs.recipe k = some y)
include hk hy

/-- A present DRAFT is replaced in its slot when the pool has room without it. -/
theorem recipeWrite_replace (hd : y.state = .draft) (hp : ts.length ≤ (st.recs.putRecipe k none).poolFree) :
    Site.recipeWrite id version factor mask rank len name raw st = accepted id version factor mask rank len name raw ts k st := by
  simp only [Site.recipeWrite, libraryChecks_of_passes h, if_neg hlen, hts, hk, recipeIs_of_some hy, hd, decide_true, if_true,
    if_neg (Nat.not_lt.mpr hp)]
  rfl

/-- The pair of a PUBLISHED or WITHDRAWN record is not written again. -/
theorem recipeWrite_stale (hd : y.state ≠ .draft) :
    Site.recipeWrite id version factor mask rank len name raw st = st.refuse .staleVersion := by
  simp only [Site.recipeWrite, libraryChecks_of_passes h, if_neg hlen, hts, hk, recipeIs_of_some hy, hd, decide_false,
    Bool.false_eq_true, if_false]

end Write

/-- Settles O25: each outcome of the owner (stored anew, replaced, stale, bad length), answered at the port. -/
theorem recipeWriteStoresADraft : Obligations.RecipeWriteStoresADraft := by
  intro id version factor mask rank len name raw s c r htake h0 h1 hv
  have h := passes_of_takesLive htake h0 h1 hv
  refine ⟨fun ts k hn hm hts hfree hk hp => ?_, fun ts k y hn hm hts hk hy => ⟨fun hd hp => ?_, fun hd => ?_⟩, fun hn => ?_⟩
  · obtain ⟨out, ho⟩ := exec_recipeWrite_of_accepted htake (recipeWrite_new h (by omega) hts hfree hk hp)
    exact ⟨_, out, ho, rfl, rfl, rfl, clamp_zero .., rfl, rfl, rfl, rfl⟩
  · obtain ⟨out, ho⟩ := exec_recipeWrite_of_accepted htake (recipeWrite_replace h (by omega) hts hk hy hd hp)
    exact ⟨_, out, ho, rfl, rfl, rfl, rfl⟩
  · exact exec_of_refuse (exec_recipeWrite ..) htake (recipeWrite_stale h (by omega) hts hk hy hd)
  · exact exec_of_refuse (exec_recipeWrite ..) htake (recipeWrite_badLength h hn)

/-! ## Stages (R56) -/

theorem cookModeOfCode_eq_none_iff {n : Nat} : cookModeOfCode n = none ↔ 4 ≤ n := by
  match n with
  | 0 | 1 | 2 | 3 => simp [cookModeOfCode]
  | n + 4 => simp [cookModeOfCode]

/-- A stage that is read: its mode is the code's, its end one of two, every field clamped. -/
theorem readStage_of_some {raw : RawStage} {t : Stage} (h : readStage raw = some t) :
    t.setpoint = clamp 30 300 raw.setpoint.toNat ∧ t.humidity = humidityFor t.mode raw.humidity.toNat
      ∧ t.fan = clamp 1 5 raw.fan.toNat
      ∧ (t.stop = .time (clamp 1 14400 raw.time.toNat)
        ∨ t.stop = .probe (clamp 20 99 raw.core.toNat) (clamp 60 14400 raw.time.toNat)) := by
  unfold readStage at h
  split at h
  · cases h
  · dsimp only at h
    split at h
    · cases h; exact ⟨rfl, rfl, rfl, .inl rfl⟩
    · cases h; exact ⟨rfl, rfl, rfl, .inr rfl⟩
    · cases h

/-- A stage is not read just when its mode code or its end code names nothing. -/
theorem readStage_eq_none_iff {raw : RawStage} :
    readStage raw = none ↔ 4 ≤ raw.modeEnd.toNat % 16 ∨ 2 ≤ raw.modeEnd.toNat / 16 := by
  unfold readStage
  split
  · next hm => simp [cookModeOfCode_eq_none_iff.mp hm]
  · next m hm =>
    have hmode : ¬4 ≤ raw.modeEnd.toNat % 16 := fun h => by
      rw [cookModeOfCode_eq_none_iff.mpr h] at hm; cases hm
    dsimp only
    split
    · next he => simp [hmode, he]
    · next he => simp [hmode, he]
    · next he0 he1 =>
      have hend : raw.modeEnd.toNat / 16 ≠ 0 ∧ raw.modeEnd.toNat / 16 ≠ 1 := ⟨he0, he1⟩
      simp only [hmode, false_or, true_iff]
      omega

theorem humidityFor_le (m : CookMode) (h : Nat) : humidityFor m h ≤ 100 := by
  cases m with
  | combi => exact clamp_le (by decide)
  | _ => simp [humidityFor]

theorem humidityFor_dry {m : CookMode} (hm : m = .convection ∨ m = .hold) (h : Nat) : humidityFor m h = 0 := by
  obtain rfl | rfl := hm <;> rfl

/-- Settles O26: what a stage that is read holds, and when one is not read. -/
theorem stagesAreBroughtIntoRange : Obligations.StagesAreBroughtIntoRange := by
  refine fun raw => ⟨fun t ht => ?_, readStage_eq_none_iff⟩
  obtain ⟨hset, hhum, hfan, hstop⟩ := readStage_of_some ht
  rw [hset, hhum, hfan]
  refine ⟨le_clamp (by decide), clamp_le (by decide), le_clamp (by decide), clamp_le (by decide), humidityFor_le ..,
    fun hm => humidityFor_dry hm _, fun hm => by rw [hm]; rfl, fun d hd => ?_, fun core cap hc => ?_, clamp_of_mem⟩
  · obtain h | h := hstop <;> cases h.symm.trans hd
    exact ⟨le_clamp (by decide), clamp_le (by decide)⟩
  · obtain h | h := hstop <;> cases h.symm.trans hc
    exact ⟨le_clamp (by decide), clamp_le (by decide), le_clamp (by decide), clamp_le (by decide)⟩

/-! ## What leaves the recipe records -/

theorem recipe_congr {a b : Recs} (h : b.recipes = a.recipes) (k : Fin 128) : b.recipe k = a.recipe k := by
  simp [Recs.recipe, h]

theorem changeOven_recipes (r : Recs) (i : Fin 24) (f : Oven → Oven) : (r.changeOven i f).recipes = r.recipes := by
  unfold Recs.changeOven; split <;> rfl

theorem recompute_recipes (i : Fin 24) (r : Recs) : (r.recompute i).recipes = r.recipes := by
  unfold Recs.recompute
  split
  · rfl
  · dsimp only; split <;> rfl

theorem enteredService_recipes (e : Env) (i : Fin 24) (r : Recs) : (r.enteredService e i).recipes = r.recipes :=
  (((Recs.resolvePart_quiet ..).trans (Recs.evaluateInService_quiet ..)).trans (Recs.arbiter_quiet ..)).recipes

theorem loadingTest_recipes (e : Env) (i : Fin 24) (r : Recs) : (r.loadingTest e i).recipes = r.recipes := by
  unfold Recs.loadingTest
  split
  · exact (enteredService_recipes ..).trans (changeOven_recipes ..)
  · rfl

theorem retargetAll_recipes (e : Env) (r : Recs) : (r.retargetAll e).recipes = r.recipes := by
  unfold Recs.retargetAll
  induction slots generalizing r with
  | nil => rfl
  | cons i is ih =>
    refine (ih _).trans ?_
    dsimp only
    split
    · exact (loadingTest_recipes ..).trans (recompute_recipes ..)
    · rfl

theorem tellHolds_quiet (e : Env) (before after : Recs) : after.Quiet (Recs.tellHolds e before after) := by
  have hgain : after.Quiet (slots.foldl (fun r i =>
      if (before.reasons i).gained (after.reasons i) then r.revoke e i else r) after) :=
    Recs.Quiet.foldl (fun r _ => Recs.Quiet.ite (Recs.revoke_quiet ..) (.refl r)) _ _
  have hloss := hgain.trans (Recs.Quiet.ite
    (c := (slots.any fun i => before.staysIn after i && (before.reasons i).lost (after.reasons i)) = true)
    (Recs.arbiter_quiet e _) (.refl _))
  exact hloss.trans (Recs.Quiet.ite (Recs.upeCheck_quiet ..) (.refl _))

/-- What the neighbours do when told of a change leaves the recipe records as the change left them. -/
theorem holding_recipe (st : Site) (f : Env → Recs → Recs) (k : Fin 128) :
    (st.holding f).recs.recipe k = (f st.env st.recs).recipe k :=
  recipe_congr (tellHolds_quiet ..).recipes k

/-- A change of the library after which every target is recomputed (R75). -/
def retargeted (f : Recs → Recs) (st : Site) : Site := st.holding fun e r => (f r).retargetAll e

theorem retargeted_recipe (f : Recs → Recs) (st : Site) (k : Fin 128) : (retargeted f st).recs.recipe k = (f st.recs).recipe k :=
  (holding_recipe ..).trans (recipe_congr (retargetAll_recipes ..) k)

/-! ## Changing and releasing a record -/

theorem changeRecipe_recipe (r : Recs) (k j : Fin 128) (f : Recipe → Recipe) :
    (r.changeRecipe k f).recipe j = if k = j then (r.recipe k).map f else r.recipe j := by
  cases h : r.recipe k with
  | none =>
    rw [show r.changeRecipe k f = r by simp [Recs.changeRecipe, h]]
    split
    · subst_vars; exact h
    · rfl
  | some x => rw [Recs.changeRecipe_some h, Recs.mark_recipe, Recs.putRecipe_recipe]; rfl

theorem changeRecipe_recipe_self {r : Recs} {k : Fin 128} {x : Recipe} (h : r.recipe k = some x) (f : Recipe → Recipe) :
    (r.changeRecipe k f).recipe k = some (f x) := by rw [changeRecipe_recipe, if_pos rfl, h]; rfl

theorem changeRecipe_recipe_ne (r : Recs) {k j : Fin 128} (h : j ≠ k) (f : Recipe → Recipe) :
    (r.changeRecipe k f).recipe j = r.recipe j := by rw [changeRecipe_recipe, if_neg h.symm]

theorem changeRecipe_ovens (r : Recs) (k : Fin 128) (f : Recipe → Recipe) : (r.changeRecipe k f).ovens = r.ovens := by
  unfold Recs.changeRecipe; split <;> rfl

theorem countOvens_congr {a b : Recs} (h : b.ovens = a.ovens) (p : Fin 24 → Oven → Bool) : b.countOvens p = a.countOvens p := by
  simp [Recs.countOvens, Recs.ovenIs, Recs.oven, h]

/-- Changing a recipe record moves no carrier count and no cook count (R66, R67). -/
@[simp] theorem changeRecipe_carrierCount (r : Recs) (k : Fin 128) (f : Recipe → Recipe) (id version : Nat) :
    (r.changeRecipe k f).carrierCount id version = r.carrierCount id version := countOvens_congr (changeRecipe_ovens ..) _

@[simp] theorem changeRecipe_cookCount (r : Recs) (k : Fin 128) (f : Recipe → Recipe) (id version : Nat) :
    (r.changeRecipe k f).cookCount id version = r.cookCount id version := countOvens_congr (changeRecipe_ovens ..) _

theorem releaseAt_recipe_ne (r : Recs) {k j : Fin 128} (h : j ≠ k) : (r.releaseAt k).recipe j = r.recipe j := by
  unfold Recs.releaseAt
  split
  · exact (r.putRecipe_recipe k j none).trans (if_neg h.symm)
  · rfl

/-- The release test on a WITHDRAWN record: it goes when nothing holds it (R68). -/
theorem releaseAt_recipe_self {r : Recs} {k : Fin 128} {x : Recipe} (hx : r.recipe k = some x) (hw : x.state = .withdrawn) :
    (r.releaseAt k).recipe k
      = if r.carrierCount x.id x.version = 0 ∧ r.cookCount x.id x.version = 0 then none else some x := by
  by_cases h : r.carrierCount x.id x.version = 0 ∧ r.cookCount x.id x.version = 0
  · simp [Recs.releaseAt, recipeIs_of_some hx, hw, h, Recs.dropRecipe]
  · rw [if_neg h, Recs.releaseAt, recipeIs_of_some hx, if_neg (by simpa [hw] using h), hx]

/-! ## The requests on one record (R62 to R65) -/

/-- A request that passes R59's checks names the record at a library slot. -/
structure Names (st : Site) (id : BitVec 16) (version : Byte) (k : Fin 128) (x : Recipe) : Prop
    extends Passes st id version where
  found  : st.recs.findRecipe id.toNat version.toNat = some k
  record : st.recs.recipe k = some x

theorem exec_recipeDiscard (id : BitVec 16) (version : Byte) (s : State) : exec (.recipeDiscard id version) s
    = .next (s.hostTake (.recipeDiscard id version) (Site.recipeDiscard id version)) := rfl

theorem exec_recipePublish (id : BitVec 16) (version : Byte) (s : State) : exec (.recipePublish id version) s
    = .next (s.hostTake (.recipePublish id version) (Site.recipePublish id version)) := rfl

theorem exec_recipeWithdraw (id : BitVec 16) (version : Byte) (s : State) : exec (.recipeWithdraw id version) s
    = .next (s.hostTake (.recipeWithdraw id version) (Site.recipeWithdraw id version)) := rfl

theorem exec_recipeAssign (id : BitVec 16) (version fields mask rank : Byte) (s : State) :
    exec (.recipeAssign id version fields mask rank) s
      = .next (s.hostTake (.recipeAssign id version fields mask rank) (Site.recipeAssign id version fields mask rank)) := rfl

/-- The records after a PUBLISH that replaces none, before the targets are recomputed (R63). -/
def published (k : Fin 128) (r : Recs) : Recs := r.changeRecipe k fun y => { y with state := .published }

/-- The records after a PUBLISH that replaces the PUBLISHED record at a slot, before the targets are recomputed (R63). -/
def replacePublished (k j : Fin 128) (r : Recs) : Recs :=
  (published k (r.changeRecipe j fun y => { y with state := .withdrawn })).releaseAt j

/-- The records after a WITHDRAW, before the targets are recomputed (R64). -/
def withdrawn (k : Fin 128) (r : Recs) : Recs := (r.changeRecipe k fun y => { y with state := .withdrawn }).releaseAt k

section Requests
variable {st : Site} {id : BitVec 16} {version : Byte} {k : Fin 128} {x : Recipe} (h : Names st id version k x)
include h

theorem withRecipe_of_names (f : Fin 128 → Recipe → Taken) : st.withRecipe id version f = f k x := by
  simp only [Site.withRecipe, libraryChecks_of_passes h.toPasses, h.found, h.record]

/-- DISCARD of a DRAFT that nothing holds (R62). -/
theorem recipeDiscard_idle (hd : x.state = .draft)
    (hidle : st.recs.carrierCount x.id x.version = 0 ∧ st.recs.cookCount x.id x.version = 0) :
    Site.recipeDiscard id version st = (st.modRecs fun r => r.dropRecipe k).ok [] := by
  simp [Site.recipeDiscard, withRecipe_of_names h, hd, hidle]

/-- DISCARD of a DRAFT that an oven carries or a cook names (R62). -/
theorem recipeDiscard_inUse (hd : x.state = .draft)
    (hidle : ¬(st.recs.carrierCount x.id x.version = 0 ∧ st.recs.cookCount x.id x.version = 0)) :
    Site.recipeDiscard id version st = st.refuse .inUse := by
  have hused : st.recs.carrierCount x.id x.version ≠ 0 ∨ st.recs.cookCount x.id x.version ≠ 0 := by omega
  simp [Site.recipeDiscard, withRecipe_of_names h, hd, hused]

/-- PUBLISH of an id that has no PUBLISHED record (R63). -/
theorem recipePublish_first (hd : x.state = .draft) (hold : st.recs.findState x.id .published = none) :
    Site.recipePublish id version st = (retargeted (published k) st).ok [0#8, 0#8] := by
  simp only [Site.recipePublish, withRecipe_of_names h, hd, hold]
  rfl

/-- PUBLISH of an id that has a PUBLISHED record (R63). -/
theorem recipePublish_replacing {j : Fin 128} {y : Recipe} (hd : x.state = .draft)
    (hold : st.recs.findState x.id .published = some j) (hy : st.recs.recipe j = some y) :
    Site.recipePublish id version st = (retargeted (replacePublished k j) st).ok ([1#8] ++ u8 y.version) := by
  simp only [Site.recipePublish, withRecipe_of_names h, hd, hold, Option.bind_some, hy, Option.map_some]
  rfl

/-- WITHDRAW of a PUBLISHED record (R64). -/
theorem recipeWithdraw_published (hp : x.state = .published) :
    Site.recipeWithdraw id version st = (retargeted (withdrawn k) st).ok [] := by
  simp only [Site.recipeWithdraw, withRecipe_of_names h, hp]
  rfl

end Requests

/-! ### What each leaves of the recipe records -/

section Effects
variable {r : Recs} {k j : Fin 128} {x y : Recipe}

theorem replacePublished_new (hkj : k ≠ j) (hx : r.recipe k = some x) :
    (replacePublished k j r).recipe k = some { x with state := .published } :=
  (releaseAt_recipe_ne _ hkj).trans (changeRecipe_recipe_self ((changeRecipe_recipe_ne _ hkj _).trans hx) _)

theorem replacePublished_old (hkj : k ≠ j) (hy : r.recipe j = some y) : (replacePublished k j r).recipe j
    = if r.carrierCount y.id y.version = 0 ∧ r.cookCount y.id y.version = 0 then none else some { y with state := .withdrawn } := by
  have hw := changeRecipe_recipe_self hy fun y => { y with state := .withdrawn }
  simpa [replacePublished, published] using releaseAt_recipe_self
    ((changeRecipe_recipe_ne _ hkj.symm fun y => { y with state := .published }).trans hw) rfl

theorem replacePublished_other {n : Fin 128} (hnk : n ≠ k) (hnj : n ≠ j) : (replacePublished k j r).recipe n = r.recipe n :=
  (releaseAt_recipe_ne _ hnj).trans ((changeRecipe_recipe_ne _ hnk _).trans (changeRecipe_recipe_ne _ hnj _))

theorem withdrawn_self (hx : r.recipe k = some x) : (withdrawn k r).recipe k
    = if r.carrierCount x.id x.version = 0 ∧ r.cookCount x.id x.version = 0 then none else some { x with state := .withdrawn } := by
  simpa [withdrawn] using releaseAt_recipe_self (changeRecipe_recipe_self hx fun y => { y with state := .withdrawn }) rfl

theorem withdrawn_other (hjk : j ≠ k) : (withdrawn k r).recipe j = r.recipe j :=
  (releaseAt_recipe_ne _ hjk).trans (changeRecipe_recipe_ne _ hjk _)

end Effects

/-! ### ASSIGN (R65) -/

section Assign
variable {st : Site} {id : BitVec 16} {version : Byte} {k : Fin 128} {x : Recipe} (fields mask rank : Byte)

/-- A record with the group mask and rank that a field mask names. -/
def reassigned (x : Recipe) : Recipe :=
  { x with mask := if fields.getLsbD 0 = true then mask else x.mask, rank := if fields.getLsbD 1 = true then rank.toNat else x.rank }

/-- An ASSIGN whose field mask names neither field writes nothing. -/
theorem recipeAssign_neither (h : Names st id version k x) (hw : x.state ≠ .withdrawn)
    (hm : bitOf fields 0 = false) (hn : bitOf fields 1 = false) :
    Site.recipeAssign id version fields mask rank st = st.ok ([x.mask] ++ u8 x.rank) := by
  simp only [Site.recipeAssign, withRecipe_of_names h, if_neg hw, hm, hn, Bool.not_false, Bool.and_self, if_true]

theorem reassigned_neither (hm : bitOf fields 0 = false) (hn : bitOf fields 1 = false) (x : Recipe) :
    reassigned fields mask rank x = x := by
  unfold bitOf at hm hn
  simp only [reassigned, hm, hn, Bool.false_eq_true, if_false]

/-- The records after an ASSIGN that names a field: a PUBLISHED record's change brings the targets. -/
def assigned (k : Fin 128) (x y : Recipe) (e : Env) (r : Recs) : Recs :=
  if x.state = .published then (r.changeRecipe k fun _ => y).retargetAll e else r.changeRecipe k fun _ => y

theorem assigned_recipe (k : Fin 128) (x y : Recipe) (e : Env) (r : Recs) (j : Fin 128) :
    (assigned k x y e r).recipe j = (r.changeRecipe k fun _ => y).recipe j := by
  unfold assigned
  split
  · exact recipe_congr (retargetAll_recipes ..) j
  · rfl

/-- An ASSIGN that names a field. -/
theorem recipeAssign_some (h : Names st id version k x) (hw : x.state ≠ .withdrawn)
    (hany : ¬(bitOf fields 0 = false ∧ bitOf fields 1 = false)) :
    Site.recipeAssign id version fields mask rank st = (st.holding (assigned k x (reassigned fields mask rank x))).ok
      ([(reassigned fields mask rank x).mask] ++ u8 (reassigned fields mask rank x).rank) := by
  have hbits : ¬(!bitOf fields 0 && !bitOf fields 1) = true := by simpa using hany
  simp only [Site.recipeAssign, withRecipe_of_names h, if_neg hw, if_neg hbits]
  rfl

/-- ASSIGN answers the mask and rank as they then stand and writes no other record. -/
theorem recipeAssign_ok (h : Names st id version k x) (hw : x.state ≠ .withdrawn) :
    ∃ r' : Recs, Site.recipeAssign id version fields mask rank st
        = ({ st with recs := r' } : Site).ok ([(reassigned fields mask rank x).mask] ++ u8 (reassigned fields mask rank x).rank)
      ∧ r'.recipe k = some (reassigned fields mask rank x) ∧ ∀ j, j ≠ k → r'.recipe j = st.recs.recipe j := by
  by_cases hnone : bitOf fields 0 = false ∧ bitOf fields 1 = false
  · obtain ⟨hm, hn⟩ := hnone
    rw [reassigned_neither fields mask rank hm hn]
    exact ⟨st.recs, recipeAssign_neither fields mask rank h hw hm hn, h.record, fun _ _ => rfl⟩
  · have hrec (j : Fin 128) := (holding_recipe st (assigned k x (reassigned fields mask rank x)) j).trans (assigned_recipe ..)
    exact ⟨_, recipeAssign_some fields mask rank h hw hnone, (hrec k).trans (changeRecipe_recipe_self h.record _),
      fun j hj => (hrec j).trans (changeRecipe_recipe_ne _ hj _)⟩

end Assign

/-- Settles O27: each request's outcome at its owner, answered at the port, and what it leaves of the records. -/
theorem recipeRequestsMoveTheRecord : Obligations.RecipeRequestsMoveTheRecord := by
  intro k x id version s r kept idle hk hx h0 h1 hv
  have names {c : Instr} (ht : s.takesLive c = true) : Names s.site id version k x := ⟨passes_of_takesLive ht h0 h1 hv, hk, hx⟩
  refine ⟨fun ht hd hidle => ?_, fun ht hd hidle => ?_, fun ht hd hold => ?_, fun j y ht hd hold hy => ?_, fun ht hp => ?_,
    fun fields mask rank ht hw => ?_⟩
  · exact exec_of_ok_short (exec_recipeDiscard ..) ht (recipeDiscard_idle (names ht) hd hidle) (Nat.zero_le _)
  · exact exec_of_refuse (exec_recipeDiscard ..) ht (recipeDiscard_inUse (names ht) hd hidle)
  · have ho := exec_of_ok_short (exec_recipePublish ..) ht (recipePublish_first (names ht) hd hold) (by decide)
    have hrec := retargeted_recipe (published k) s.site
    exact ⟨_, ho, (hrec k).trans (changeRecipe_recipe_self hx _), fun j hj => (hrec j).trans (changeRecipe_recipe_ne _ hj _)⟩
  · have hkj : k ≠ j := by
      rintro rfl
      have hp := state_of_findState hold hx
      rw [hd] at hp
      cases hp
    have ho := exec_of_ok_short (exec_recipePublish ..) ht (recipePublish_replacing (names ht) hd hold hy) (by simp [u8, leBytes])
    have hrec := retargeted_recipe (replacePublished k j) s.site
    exact ⟨_, ho, (hrec k).trans (replacePublished_new hkj hx), (hrec j).trans (replacePublished_old hkj hy),
      fun n hnk hnj => (hrec n).trans (replacePublished_other hnk hnj)⟩
  · have ho := exec_of_ok_short (exec_recipeWithdraw ..) ht (recipeWithdraw_published (names ht) hp) (Nat.zero_le _)
    have hrec := retargeted_recipe (withdrawn k) s.site
    exact ⟨_, ho, (hrec k).trans (withdrawn_self hx), fun j hj => (hrec j).trans (withdrawn_other hj)⟩
  · obtain ⟨r', ho, hself, hother⟩ := recipeAssign_ok fields mask rank (names ht) hw
    exact ⟨r', exec_of_ok_short (exec_recipeAssign ..) ht ho (by simp [u8, leBytes]), hself, hother⟩

end Sys2Proof.Machine.RecipeLibrary
end

section
/-!
The target of an oven (R74): target order, the sort by it, the records that qualify, and what a target of limited length holds.
-/
namespace Sys2Proof.Machine.RecipeTarget

/-! ## Target order -/

/-- Rank and then id do not put `x` after `y` (R74). -/
def NotAfter (x y : Recipe) : Prop := x.rank < y.rank ∨ (x.rank = y.rank ∧ x.id ≤ y.id)

theorem NotAfter.trans {x y z : Recipe} (hxy : NotAfter x y) (hyz : NotAfter y z) : NotAfter x z := by
  unfold NotAfter at *; omega

theorem targetBefore_iff {x y : Recipe} : targetBefore x y = true ↔ x.rank < y.rank ∨ (x.rank = y.rank ∧ x.id < y.id) := by
  simp [targetBefore, targetBefore.pairLt]

/-- What comes before is not after. -/
theorem notAfter_of_targetBefore {x y : Recipe} (h : targetBefore x y = true) : NotAfter x y :=
  (targetBefore_iff.mp h).imp_right fun ⟨hrank, hid⟩ => ⟨hrank, Nat.le_of_lt hid⟩

/-- Target order is total: if `x` does not come before `y`, then `y` is not after `x`. -/
theorem notAfter_of_not_targetBefore {x y : Recipe} (h : ¬targetBefore x y = true) : NotAfter y x := by
  rw [targetBefore_iff] at h; unfold NotAfter; omega

/-! ## Sorting into target order -/

theorem mem_insertRecipe {x y : Recipe} {l : List Recipe} : y ∈ insertRecipe x l ↔ y = x ∨ y ∈ l := by
  induction l with
  | nil => simp [insertRecipe]
  | cons z zs ih =>
    unfold insertRecipe
    split
    · exact List.mem_cons
    · rw [List.mem_cons, ih, List.mem_cons, or_left_comm]

@[simp] theorem mem_sortRecipes {y : Recipe} {l : List Recipe} : y ∈ sortRecipes l ↔ y ∈ l := by
  induction l with
  | nil => rfl
  | cons x xs ih => exact mem_insertRecipe.trans ((or_congr_right ih).trans List.mem_cons.symm)

/-- A record that enters an ordered list leaves it ordered. -/
theorem insertRecipe_pairwise (x : Recipe) {l : List Recipe} (h : l.Pairwise NotAfter) : (insertRecipe x l).Pairwise NotAfter := by
  induction l with
  | nil => exact List.pairwise_singleton ..
  | cons y ys ih =>
    obtain ⟨hy, hys⟩ := List.pairwise_cons.mp h
    unfold insertRecipe
    split
    · next hxy =>
      have hx : NotAfter x y := notAfter_of_targetBefore hxy
      exact List.pairwise_cons.mpr ⟨List.forall_mem_cons.mpr ⟨hx, fun z hz => hx.trans (hy z hz)⟩, h⟩
    · next hxy =>
      refine List.pairwise_cons.mpr ⟨fun z hz => ?_, ih hys⟩
      rcases mem_insertRecipe.mp hz with rfl | hz
      · exact notAfter_of_not_targetBefore hxy
      · exact hy z hz

theorem sortRecipes_pairwise (l : List Recipe) : (sortRecipes l).Pairwise NotAfter := by
  induction l with
  | nil => exact List.Pairwise.nil
  | cons x _ ih => exact insertRecipe_pairwise x ih

/-- What a limit leaves out of an ordered list: the limit is reached, and nothing taken in comes after it. -/
theorem take_full_of_not_mem {l : List Recipe} {k : Nat} {x : Recipe} (hl : l.Pairwise NotAfter) (hx : x ∈ l)
    (hout : x ∉ l.take k) : (l.take k).length = k ∧ ∀ y ∈ l.take k, NotAfter y x := by
  rw [← List.take_append_drop k l] at hl hx
  have hdrop : x ∈ l.drop k := (List.mem_append.mp hx).resolve_left hout
  have hk : k ≤ l.length := by
    have := List.length_pos_of_mem hdrop
    rw [List.length_drop] at this
    omega
  exact ⟨List.length_take_of_le hk, fun y hy => (List.pairwise_append.mp hl).2.2 y hy x hdrop⟩

/-! ## The records that qualify -/

/-- A record that R74 lets into the target of an oven: of the library, PUBLISHED, of the oven's group, within the stage limit
and not refused. -/
def Qualifies (r : Recs) (o : Oven) (c : Capability) (x : Recipe) : Prop :=
  (∃ k : Fin 128, r.recipe k = some x) ∧ x.state = .published ∧ x.mask.getLsbD o.group.val = true
    ∧ x.stages.length ≤ c.maxStages ∧ (x.id, x.version) ∉ o.refused

theorem mem_eligibleRecipes {r : Recs} {g : Fin 8} {x : Recipe} : x ∈ r.eligibleRecipes g
    ↔ (∃ k : Fin 128, r.recipe k = some x) ∧ x.state = .published ∧ x.mask.getLsbD g.val = true := by
  simp [Recs.eligibleRecipes, libraryPlaces, bitOf]

/-- The qualifying records in target order. -/
def ranked (r : Recs) (o : Oven) (c : Capability) : List Recipe :=
  sortRecipes (((r.eligibleRecipes o.group).filter fun x => decide (x.stages.length ≤ c.maxStages)).filter
    fun x => !o.refused.contains (x.id, x.version))

theorem mem_ranked {r : Recs} {o : Oven} {c : Capability} {x : Recipe} : x ∈ ranked r o c ↔ Qualifies r o c x := by
  simp [ranked, Qualifies, mem_eligibleRecipes, and_assoc, -List.filter_filter]

/-- The target with a capability is the ranked records up to the limit K (R73, R74). -/
theorem targetOf_pairs {r : Recs} {o : Oven} {c : Capability} (h : o.capability = some c) :
    (r.targetOf o).pairs = ((ranked r o c).take (min 40 c.capacity)).map fun x => (x.id, x.version) := by
  simp only [Recs.targetOf, h]; rfl

/-- Settles O28: the target is the head of the ranked list of exactly the qualifying records. -/
theorem targetHoldsTheBestFittingRecipes : Obligations.TargetHoldsTheBestFittingRecipes := by
  intro r o c hc qualifies t
  have ht : t = ((ranked r o c).take (min 40 c.capacity)).map fun x => (x.id, x.version) := targetOf_pairs hc
  have hq {y : Recipe} (hy : y ∈ (ranked r o c).take (min 40 c.capacity)) : qualifies y := mem_ranked.mp (List.mem_of_mem_take hy)
  rw [ht]
  refine ⟨?_, fun p hp => ?_, fun x hx hout => ?_⟩
  · rw [List.length_map]
    exact List.length_take_le ..
  · obtain ⟨y, hy, rfl⟩ := List.mem_map.mp hp
    exact ⟨y, hq hy, rfl⟩
  · obtain ⟨hlen, hbest⟩ := take_full_of_not_mem (sortRecipes_pairwise _) (mem_ranked.mpr hx)
      fun hin => hout (List.mem_map_of_mem hin)
    refine ⟨by rw [List.length_map]; exact hlen, fun p hp => ?_⟩
    obtain ⟨y, hy, rfl⟩ := List.mem_map.mp hp
    exact ⟨y, hq hy, rfl, hbest y hy⟩

end Sys2Proof.Machine.RecipeTarget
end
